-- ==== Sys2Proof/Word.lean ====
section
/-! DEFINITION. The unit of everything the part stores, sends or receives: the byte. -/

namespace Sys2Proof

/-- One byte of the link, the downlink, the array or a pin-level report. -/
abbrev Byte := BitVec 8

/-- A 16-bit cyclic check (R187). -/
abbrev Check := BitVec 16

/-- An array's memory: (key, value) pairs with strictly rising keys. -/
abbrev KeyList (α : Type) := List (Nat × α)

/-- The data bytes of one bank's array, the written ones listed (R1). -/
abbrev Memory := List Host.Cell

end Sys2Proof
end

