-- ==== Sys2Proof/Config.lean ====
section
/-! DEFINITION. What one implementation fixes: the capacities of the part (00, Principal Capacities) and the
values the spec leaves open (opaque, so nothing can be proved of them beyond their range). -/

namespace Sys2Proof.Config

/-- Base ticks of one round period (00 Time; R132). -/
def roundTicks : Nat := 1920
/-- Bits of one round (R144). -/
def roundBits : Nat := 5808
/-- The link's inter-byte gap limit in base ticks (R169, R170). -/
def gapTicks : Nat := 192
/-- Base ticks in one second (R63). -/
def ticksPerSecond : Nat := 96000
/-- Greatest position (R53). -/
def maxPosition : Nat := 16777215
/-- Data bytes of a page (R1). -/
def pageBytes : Nat := 2048
/-- Pages of a segment (00). -/
def pagesPerSegment : Nat := 64
/-- Tag slots of a page (00). -/
def slotsPerPage : Nat := 4
/-- Segments of a bank (00). -/
def segmentsPerBank : Nat := 2048
/-- Entries of the track directory (R24). -/
def directoryEntries : Nat := 128
/-- Segments of one track at most (R24). -/
def segmentsPerTrack : Nat := 256
/-- Places of the inbound command queue (R171). -/
def inboundPlaces : Nat := 8
/-- Messages of the outbound queue (R175). -/
def outboundMessages : Nat := 32
/-- Notices in the outbound queue at most (R175). -/
def outboundNotices : Nat := 24
/-- Largest body of a link frame (R168). -/
def largestBody : Nat := 2080
/-- The free-plus-clear count below which SEGMENTS_LOW is raised (R21). -/
def segmentsLow : Nat := 32
/-- Messages of a prompt queue (R98). -/
def promptPlaces : Nat := 16
/-- Messages of a repeat queue (R98). -/
def repeatPlaces : Nat := 4
/-- Cues of a staging list (R92). -/
def stagingPlaces : Nat := 8
/-- Cues of a caption window (R92). -/
def windowPlaces : Nat := 4
/-- Entries of a live-text ring (R105). -/
def ringPlaces : Nat := 8

/-- The silicon revision less one: R179 gives its range, 1 to 255, and no value. Log 12. -/
opaque revisionIndex : Fin 255

/-- The revision number reported by IDENT, 1 to 255 (R179). -/
def revision : Nat := revisionIndex.val + 1

/-- The code a ROSTER_READ reply carries for state ASSIGNED (false) or RELEASING (true): R158 has the state
reported and R188's code tables give it no code. Log 11. -/
opaque rosterStateCode : Bool → Byte

end Sys2Proof.Config
end

