-- ==== Sys2Proof/Syntax.lean ====
section
/-! DEFINITION. The commands and events of the part, one constructor per row of spec/opcode_table.json, and the
types of their operands. A controller command carries its tag and the fields of its body (R189), as numbers; an
array completion carries what the array gave (log 8). -/

namespace Sys2Proof

abbrev RoomNo := Fin 16
abbrev BindNo := Fin 4
abbrev BankNo := Fin 2
abbrev LineNo := Fin 48
abbrev SegNo := Fin 2048
abbrev RosterIx := Fin 512

/-- A language code: three bytes, each 41h to 5Ah in a valid one (R188). -/
structure Lang where
  a : Byte
  b : Byte
  c : Byte
deriving DecidableEq, Repr

/-- The segment tag of R3, as the array holds it: a tag read back may be out of range (R47). -/
structure SegTag where
  trackId : Nat
  kind    : Nat
  lang    : Lang
  gen     : Nat
  ordinal : Nat
  entry   : Nat
deriving DecidableEq, Repr

/-- A tag slot that is not blank (R2). -/
structure TagSlot where
  ordinal   : Nat
  fill      : Nat
  dataCheck : Check
  segTag    : Option SegTag
  tagCheck  : Check
deriving DecidableEq, Repr

/-- What a read of one page gives: its highest tag slot that is not blank, with its number, and the data bytes
below that slot's fill mark (R7). -/
structure PageView where
  slot : Option (Nat × TagSlot)
  data : List Byte
deriving DecidableEq, Repr

/-- What the array holds of a write that it did not take as given (R8): the tag slot (or blank) and, for each
data byte of the write, the byte held or none where it stayed unwritten. -/
structure WriteFlaw where
  slot : Option TagSlot
  data : List (Option Byte)
deriving DecidableEq, Repr

/-- What a segment clear left written (R9): data bytes by their offset in the segment and tag slots by their
number in the segment (page × 4 + slot). Both lists are empty when every byte is unwritten. -/
structure ClearFlaw where
  cells : List (Nat × Byte)
  slots : List (Nat × TagSlot)
deriving DecidableEq, Repr

/-- What became of one tag slot of page 0 in a clear cut by a power failure (R12). -/
inductive SlotFate where
  | intact
  | blank
  | damaged
deriving DecidableEq, Repr

/-- What a power failure left of the operation in progress in a bank (R12). A choice that does not fit the
operation leaves the array as it was. -/
inductive ArrayCut where
  /-- A fetch or read, or an operation that had not begun to change the array. -/
  | untouched
  /-- A write: the tag slot left blank. -/
  | slotBlank
  /-- A write: the tag slot left damaged. -/
  | slotDamaged
  /-- A write: the tag slot intact and only the first n data bytes written. -/
  | dataCut (n : Nat)
  /-- A clear: pages from n upward (n at least 1) unwritten and the lower ones intact, page 0's tag slots as given. -/
  | clearCut (n : Nat) (f0 f1 f2 f3 : SlotFate)
deriving DecidableEq, Repr

/-- One patch of a TRACK_MOVE (R39): its length field is the number of its bytes. -/
structure Patch where
  offset : Nat
  bytes  : List Byte
deriving DecidableEq, Repr

/-- The rows of spec/opcode_table.json. -/
inductive Instr where
  | powerOn (baud1 baud0 : Bool)
  | linkByte (b : Byte) (stopOk : Bool)
  | gapTimerExpiry
  | intactFrame (type : Nat) (tag : Byte) (body : List Byte)
  | messageSent
  | ident (tag : Byte)
  | softReset (tag : Byte)
  | noticeSet (tag : Byte) (switch : Nat) (mask : BitVec 16)
  | eventsRead (tag : Byte) (scope : Nat)
  | eventsClear (tag : Byte) (scope : Nat) (classes : BitVec 16)
  | lineSet (tag : Byte) (line direction level pull : Nat)
  | lineRead (tag : Byte)
  | roomSetup (tag : Byte) (room mode rate p frameLine runLine emitLine tallyLine channel carousel : Nat)
  | roomStatus (tag : Byte) (room : Nat)
  | roomReset (tag : Byte) (room : Nat)
  | roomDark (tag : Byte) (room : Nat)
  | arm (tag : Byte) (room pos endFlag endPos : Nat)
  | go (tag : Byte) (room : Nat)
  | hold (tag : Byte) (room : Nat)
  | resume (tag : Byte) (room : Nat)
  | seek (tag : Byte) (room pos : Nat)
  | retrim (tag : Byte) (room divider : Nat)
  | endShow (tag : Byte) (room : Nat)
  | slotMap (tag : Byte) (room : Nat) (entries : List (Nat × Nat))
  | bindTrack (tag : Byte) (room binding trackId : Nat) (lang : Lang)
  | unbind (tag : Byte) (room binding : Nat)
  | liveText (tag : Byte) (room binding hold notify : Nat) (text : List Byte)
  | trackCreate (tag : Byte) (trackId kind : Nat) (lang : Lang) (bank : Nat)
  | trackWrite (tag : Byte) (trackId expected : Nat) (data : List Byte)
  | trackSeal (tag : Byte) (trackId expected : Nat)
  | trackMove (tag : Byte) (trackId : Nat) (patches : List Patch)
  | trackDelete (tag : Byte) (trackId : Nat)
  | trackInfo (tag : Byte) (trackId : Nat)
  | storeInfo (tag : Byte)
  | assign (tag : Byte) (receiver room binding size volume : Nat)
  | release (tag : Byte) (receiver : Nat)
  | rosterRead (tag : Byte) (first count : Nat)
  | fetchComplete (bank : BankNo) (seen : Option PageView)
  | pageWriteComplete (bank : BankNo) (flaw : Option WriteFlaw)
  | clearComplete (bank : BankNo) (flaw : ClearFlaw)
  | moveStepComplete (bank : BankNo) (seen : Option PageView) (flaw : Option WriteFlaw)
  | tagReadComplete (bank : BankNo) (seen : Option (Option TagSlot))
  | mountPageReadComplete (bank : BankNo) (seen : Option PageView)
  | framePulse (room : RoomNo)
  | runLineChange (room : RoomNo) (level : Bool)
  | syncHoldExpiry (room : RoomNo)
  | prescalerExpiry (room : RoomNo)
  | dividerExpiry (room : RoomNo)
  | roundBoundary (room : RoomNo)
  | powerFail (cut0 cut1 : ArrayCut)
  | pinLevelChange (line : LineNo) (drive : Option Bool)
deriving DecidableEq, Repr

end Sys2Proof
end

