-- ==== Sys2Proof/WellFormed.lean ====
section
/-! DEFINITION. Which commands can be on the wire or come from the array: every number fits its field (R188,
R189), every body fits a frame (R168), and what an array operation is said to have given has the shape of its
page (R1, R2). -/

namespace Sys2Proof

/-- A number of n bytes (R188). -/
abbrev fits (n v : Nat) : Bool := decide (v < 256 ^ n)

/-- A segment tag whose fields fit their widths (R3). -/
def SegTag.wellFormed (t : SegTag) : Bool :=
  fits 2 t.trackId && fits 1 t.kind && fits 1 t.gen && fits 1 t.ordinal && fits 3 t.entry

/-- A tag slot whose fields fit their widths: the fill mark is 0 to 2048 (R2). -/
def TagSlot.wellFormed (t : TagSlot) : Bool :=
  fits 1 t.ordinal && decide (t.fill ≤ Config.pageBytes) &&
    (match t.segTag with | none => true | some g => g.wellFormed)

/-- A page view: the slot is one of four and there are as many data bytes as its fill mark says (R7). -/
def PageView.wellFormed (v : PageView) : Bool :=
  match v.slot with
  | none => v.data.isEmpty
  | some (i, t) => decide (i < 4) && t.wellFormed && decide (v.data.length = t.fill)

def WriteFlaw.wellFormed (f : WriteFlaw) : Bool :=
  decide (f.data.length ≤ Config.pageBytes) &&
    (match f.slot with | none => true | some t => t.wellFormed)

/-- What a clear left lies within the segment. -/
def ClearFlaw.wellFormed (f : ClearFlaw) : Bool :=
  f.cells.all (fun c => decide (c.1 < Config.pagesPerSegment * Config.pageBytes)) &&
    f.slots.all (fun c => decide (c.1 < Config.pagesPerSegment * Config.slotsPerPage) && c.2.wellFormed)

/-- A clear cut short leaves pages from n upward unwritten, n at least 1, page 0 being the last (R9, R12); where
a tag slot of page 0 is no longer intact, every other page has been cleared. -/
def ArrayCut.wellFormed : ArrayCut → Bool
  | .untouched | .slotBlank | .slotDamaged => true
  | .dataCut n => decide (n < Config.pageBytes)
  | .clearCut n f0 f1 f2 f3 =>
    decide (1 ≤ n) && decide (n ≤ Config.pagesPerSegment) &&
      (decide (n = 1) || [f0, f1, f2, f3].all (fun f => decide (f = SlotFate.intact)))

def Patch.wellFormed (p : Patch) : Bool := fits 4 p.offset && fits 1 p.bytes.length

def optionAll {α : Type} (f : α → Bool) : Option α → Bool
  | none => true
  | some a => f a

/-- The command can be sent or the event can happen, whatever the state of the part. -/
def Instr.wellFormed : Instr → Bool
  | .powerOn _ _ => true
  | .linkByte _ _ => true
  | .gapTimerExpiry => true
  | .intactFrame type _ body => fits 1 type && decide (body.length ≤ Config.largestBody)
  | .messageSent => true
  | .ident _ => true
  | .softReset _ => true
  | .noticeSet _ switch _ => fits 1 switch
  | .eventsRead _ scope => fits 1 scope
  | .eventsClear _ scope _ => fits 1 scope
  | .lineSet _ line direction level pull => fits 1 line && fits 1 direction && fits 1 level && fits 1 pull
  | .lineRead _ => true
  | .roomSetup _ room mode rate p fl rl el tl channel carousel =>
    fits 1 room && fits 1 mode && fits 1 rate && fits 2 p && fits 1 fl && fits 1 rl && fits 1 el && fits 1 tl &&
      fits 1 channel && fits 1 carousel
  | .roomStatus _ room => fits 1 room
  | .roomReset _ room => fits 1 room
  | .roomDark _ room => fits 1 room
  | .arm _ room pos endFlag endPos => fits 1 room && fits 3 pos && fits 1 endFlag && fits 3 endPos
  | .go _ room => fits 1 room
  | .hold _ room => fits 1 room
  | .resume _ room => fits 1 room
  | .seek _ room pos => fits 1 room && fits 3 pos
  | .retrim _ room divider => fits 1 room && fits 2 divider
  | .endShow _ room => fits 1 room
  | .slotMap _ room entries =>
    fits 1 room && decide (entries.length = 39) && entries.all (fun e => fits 1 e.1 && fits 1 e.2)
  | .bindTrack _ room binding trackId _ => fits 1 room && fits 1 binding && fits 2 trackId
  | .unbind _ room binding => fits 1 room && fits 1 binding
  | .liveText _ room binding rounds notify text =>
    fits 1 room && fits 1 binding && fits 2 rounds && fits 1 notify && fits 1 text.length
  | .trackCreate _ trackId kind _ bank => fits 2 trackId && fits 1 kind && fits 1 bank
  | .trackWrite _ trackId expected data =>
    fits 2 trackId && fits 4 expected && decide (data.length + 6 ≤ Config.largestBody)
  | .trackSeal _ trackId expected => fits 2 trackId && fits 4 expected
  | .trackMove _ trackId patches =>
    fits 2 trackId && patches.all Patch.wellFormed && fits 1 patches.length &&
      decide (3 + (patches.map (fun p => 5 + p.bytes.length)).sum ≤ Config.largestBody)
  | .trackDelete _ trackId => fits 2 trackId
  | .trackInfo _ trackId => fits 2 trackId
  | .storeInfo _ => true
  | .assign _ receiver room binding size volume =>
    fits 4 receiver && fits 1 room && fits 1 binding && fits 1 size && fits 1 volume
  | .release _ receiver => fits 4 receiver
  | .rosterRead _ first count => fits 2 first && fits 1 count
  | .fetchComplete _ seen => optionAll PageView.wellFormed seen
  | .pageWriteComplete _ flaw => optionAll WriteFlaw.wellFormed flaw
  | .clearComplete _ flaw => flaw.wellFormed
  | .moveStepComplete _ seen flaw => optionAll PageView.wellFormed seen && optionAll WriteFlaw.wellFormed flaw
  | .tagReadComplete _ seen => optionAll (optionAll TagSlot.wellFormed) seen
  | .mountPageReadComplete _ seen => optionAll PageView.wellFormed seen
  | .framePulse _ => true
  | .runLineChange _ _ => true
  | .syncHoldExpiry _ => true
  | .prescalerExpiry _ => true
  | .dividerExpiry _ => true
  | .roundBoundary _ => true
  | .powerFail cut0 cut1 => cut0.wellFormed && cut1.wellFormed
  | .pinLevelChange _ _ => true

end Sys2Proof
end

