-- ==== Sys2Proof/Decode.lean ====
section
/-! DEFINITION. The command that a word spells by the opcode table's bits. No row of spec/opcode_table.json
gives bits ("fields" is empty in every row), so no word spells a command. The link's own framing (R168, R169)
and the bodies of its commands (R189) are read in Machine/Operands.lean and Machine/Link.lean. -/

namespace Sys2Proof

/-- The command the word `w` of `nbits` bits spells by the opcode table: none, for every word. -/
def decodeTableWord (_nbits _w : Nat) : Option Instr := none

end Sys2Proof
end

