-- ==== Sys2Proof/Machine/State.lean ====
section
/-! DEFINITION. Everything the spec gives the part to hold, as plain data, and the part right after power-on. -/

namespace Sys2Proof.Machine

open Sys2Proof

/-! ### Show clocks (R53) -/

/-- R55. -/
inductive ShowState where
  | dark | armed | running | held | ended
deriving DecidableEq, Repr

/-- The hold-cause set: a subset of HOST, RUN_LOW and SYNC_LOST (R53). -/
structure Holds where
  host     : Bool
  runLow   : Bool
  syncLost : Bool
deriving DecidableEq, Repr

inductive SyncMode where
  | external | internal
deriving DecidableEq, Repr

/-- The prescaler and divider chain of R63: stopped with its counts discarded, paused with both counts kept
(entry to HELD), or counting. A count is the number of expiries still to come. -/
inductive Chain where
  | stopped
  | paused (pre div : Nat)
  | running (pre div : Nat)
deriving DecidableEq, Repr

/-- One room's show clock (R53): its state and its setup. -/
structure Clock where
  show_     : ShowState
  pos       : Nat
  endPos    : Option Nat
  holds     : Holds
  mode      : SyncMode
  rate      : Nat
  p         : Option Nat
  nominal   : Option Nat
  current   : Option Nat
  pendingDiv : Option Nat
  chain     : Chain
  syncTimer : Option Nat
  frameLine : Option LineNo
  runLine   : Option LineNo
  emitLine  : Option LineNo
  tallyLine : Option LineNo
  channel   : Nat
  carousel  : Nat
deriving DecidableEq, Repr

/-! ### Bindings (R72) -/

/-- R73. -/
inductive BState where
  | unbound | priming | playing | starved | faulted | finished | unbinding
deriving DecidableEq, Repr

inductive TrackRef where
  | none
  | stored (id : Nat)
  | live
deriving DecidableEq, Repr

inductive BKind where
  | text | voice | live
deriving DecidableEq, Repr

/-- A track page: an ordinal of the track's segment list and a page index (R72). -/
structure TrackPage where
  ord : Nat
  pg  : Nat
deriving DecidableEq, Repr

/-- The binding's own record of its request in the fetch queue (R72, R74). -/
structure Issued where
  seg   : SegNo
  page  : TrackPage
  gen   : BitVec 8
  stale : Bool
deriving DecidableEq, Repr

/-- The fetch buffer (R82). `base` is the page's track byte offset, known or reckoned (R116, R123). -/
inductive FetchBuf where
  | empty
  | requested (page : TrackPage) (base : Nat) (retry held : Bool)
  | filled (page : TrackPage) (base fill : Nat) (data : List Byte)
deriving DecidableEq, Repr

/-- The serve buffer: the page being read and the read offset (R72). -/
structure ServePage where
  page : TrackPage
  base : Nat
  off  : Nat
  fill : Nat
  data : List Byte
deriving DecidableEq, Repr

/-- A staged cue, and a landing candidate (R92, R116). -/
structure Cue where
  serial : Nat
  start  : Nat
  stop   : Nat
  style  : Byte
  text   : List Byte
deriving DecidableEq, Repr

/-- What ends a window cue: its end frame, or for a live cue its remaining hold, with its notify flag (R92). -/
inductive CueTime where
  | frames (start stop : Nat)
  | live (hold : Nat) (notify : Bool)
deriving DecidableEq, Repr

/-- A cue of the caption window; `age` is its rounds since sent (R92). -/
structure WinCue where
  serial : Nat
  time   : CueTime
  style  : Byte
  text   : List Byte
  age    : Option Nat
deriving DecidableEq, Repr

/-- A caption cue whose text has not all been read: the parser's item in progress (R93). -/
structure PartCue where
  serial  : Nat
  start   : Nat
  stop    : Nat
  style   : Byte
  textLen : Nat
  got     : List Byte
deriving DecidableEq, Repr

/-- R98. -/
inductive MsgBody where
  | show_ (serial : Nat) (style : Byte) (text : List Byte)
  | clear (serial : Nat) (notify : Bool)
  | wipe
deriving DecidableEq, Repr

/-- A message in a feed queue with its count of fragments sent (R98). -/
structure FeedMsg where
  body : MsgBody
  sent : Nat
deriving DecidableEq, Repr

/-- A clip being spoken or entered mid-way: `index` is its next block index, `bodyOff` the track byte offset of
its first body byte (R109). -/
structure Clip where
  start   : Nat
  stop    : Nat
  blocks  : Nat
  index   : Nat
  bodyOff : Nat
deriving DecidableEq, Repr

/-- R109. -/
inductive NextClip where
  | none
  | header (start stop blocks : Nat)
  | endMark
deriving DecidableEq, Repr

inductive ScanPhase where
  | opening | reading | targeting
deriving DecidableEq, Repr

/-- The scan record of a PRIMING binding (R116). -/
structure Scan where
  seekPos    : Nat
  phase      : ScanPhase
  trialOrd   : Nat
  trialEntry : Nat
  cands      : List Cue
  target     : Option Clip
deriving DecidableEq, Repr

/-- What page out of reading order the binding waits for: none, the page of a block (R124), or the track's last
page for its END record (R125). -/
inductive Locate where
  | none | block | endPage
deriving DecidableEq, Repr

/-- One binding (R72). -/
structure Binding where
  state      : BState
  track      : TrackRef
  kind       : Option BKind
  lang       : Option Lang
  bank       : BankNo
  gen        : BitVec 8
  issued     : Option Issued
  fetch      : FetchBuf
  serve      : Option ServePage
  loaded     : Bool
  endTaken   : Bool
  part       : Option PartCue
  nextSerial : Nat
  skipTo     : Option Nat
  locate     : Locate
  staging    : List Cue
  window     : List WinCue
  prompt     : List FeedMsg
  rept       : List FeedMsg
  clip       : Option Clip
  nextClip   : NextClip
  scan       : Option Scan
  block      : Option (List Byte)
deriving DecidableEq, Repr

/-- An entry of a room's live-text ring (R105). -/
structure LiveEntry where
  binding : BindNo
  serial  : Nat
  text    : List Byte
  hold    : Nat
  notify  : Bool
deriving DecidableEq, Repr

/-! ### Round composers (R130) -/

/-- What a slot map gives one slot in one parity (R136). -/
inductive Carrier where
  | empty
  | binding (b : BindNo)
  | directives
deriving DecidableEq, Repr

/-- The even and the odd carrier of one slot (R136). -/
structure SlotEntry where
  even : Carrier
  odd  : Carrier
deriving DecidableEq, Repr

/-- A slot map: entry i is slot i + 1 (R136). -/
abbrev SlotMap := Vector SlotEntry 39

structure Composer where
  roundTimer : Option Nat
  counter    : Nat
  rotation   : Nat
  active     : SlotMap
  pendingMap : Option SlotMap
  tx         : Option (List Byte)
deriving DecidableEq, Repr

/-- Everything that exists once per room. -/
structure Room where
  clock      : Clock
  bindings   : Vector Binding 4
  ring       : List LiveEntry
  liveSerial : Nat
  comp       : Composer
  rota       : List RosterIx
  cursor     : Option RosterIx
  urgent     : List RosterIx
deriving DecidableEq, Repr

/-! ### The roster (R146) -/

structure RosterEntry where
  receiver     : Nat
  releasing    : Bool
  room         : RoomNo
  binding      : Nat
  size         : Nat
  volume       : Nat
  releaseCount : Nat
  former       : Option RoomNo
  forwardCount : Nat
deriving DecidableEq, Repr

/-! ### General lines (R159) -/

inductive Pull where
  | none | up | down
deriving DecidableEq, Repr

/-- One general line: its plain setting, the level at its pin, and what drives the pin from outside. -/
structure Line where
  dirOut  : Bool
  level   : Bool
  pull    : Pull
  pin     : Bool
  outside : Option Bool
deriving DecidableEq, Repr

inductive LineFn where
  | frameIn | runIn | emitEnable | tally
deriving DecidableEq, Repr

/-! ### Tracks (R24) -/

inductive TrackKind where
  | text | voice
deriving DecidableEq, Repr

inductive TrackState where
  | loading | sealed | moving | incomplete | deleting
deriving DecidableEq, Repr

/-- An element of a segment list or of a move's target list (R24, R40). -/
structure SegElem where
  ord   : Nat
  seg   : SegNo
  entry : Nat
deriving DecidableEq, Repr

/-- A parser state, running or checkpointed (R24). -/
structure ParserState where
  offset    : Nat
  openBytes : Nat
  lastStart : Nat
  lastEnd   : Nat
  longest   : Nat
  count     : Nat
deriving DecidableEq, Repr

/-- The seal summary (R24). -/
structure Summary where
  count   : Nat
  lastEnd : Nat
  longest : Nat
  endPage : TrackPage
deriving DecidableEq, Repr

/-- Move progress (R40). -/
structure MoveProgress where
  patches : List Patch
  next    : TrackPage
  moved   : Nat
  targets : List SegElem
  parser  : ParserState
deriving DecidableEq, Repr

/-- A directory entry (R24). `sealPage` is the page the END record was placed on (R35); `clearing` lists the
segments a delete has released and that have not yet been cleared, so the delete progress is its length (R37). -/
structure Track where
  id         : Nat
  kind       : TrackKind
  lang       : Lang
  bank       : BankNo
  state      : TrackState
  gen        : Nat
  segs       : List SegElem
  writePos   : Option Nat
  settled    : Option Nat
  rewind     : Option Nat
  checkpoint : Option ParserState
  priorCheckpoint : Option ParserState
  running    : Option ParserState
  inFlight   : Nat
  sealPending : Bool
  sealPage   : Option TrackPage
  summary    : Option Summary
  bindCount  : Nat
  move       : Option MoveProgress
  clearing   : List SegNo
deriving DecidableEq, Repr

/-! ### Store controllers (R4, R13 to R16) -/

inductive Pool where
  | unmounted | free | clearQueue | retired | owned | moveTarget | drain
deriving DecidableEq, Repr

/-- A write cursor (R4). -/
structure Cursor where
  page   : Nat
  writes : Nat
  fill   : Nat
deriving DecidableEq, Repr

structure SegEntry where
  pool   : Pool
  refs   : Nat
  cursor : Option Cursor
deriving DecidableEq, Repr

/-- A fetch request (R6). -/
structure FetchReq where
  room    : RoomNo
  binding : BindNo
  gen     : BitVec 8
  seg     : SegNo
  page    : Nat
deriving DecidableEq, Repr

/-- A full load buffer (R14). The write ordinal is the slot number plus 1. -/
structure LoadBuf where
  trackId    : Nat
  seg        : SegNo
  page       : Nat
  slot       : Nat
  fillBefore : Nat
  fillAfter  : Nat
  close      : Bool
  data       : List Byte
  landing    : Nat
  segTag     : Option SegTag
deriving DecidableEq, Repr

/-- A full move register (R15). -/
structure MoveReg where
  page : Nat
  fill : Nat
  data : List Byte
deriving DecidableEq, Repr

/-- The array operation in progress in a bank (R12). -/
inductive Op where
  | fetch (req : FetchReq)
  | pageWrite (lb : LoadBuf)
  | clear (seg : SegNo)
  | moveStep (trackId : Nat) (source target : SegNo) (page : TrackPage)
  | tagRead (seg : SegNo) (page slot : Nat)
  | pageRead (seg : SegNo) (page : Nat)
deriving DecidableEq, Repr

/-- The work source to be considered first (R13). -/
inductive Rotation where
  | load | move | clear
deriving DecidableEq, Repr

/-! ### The mount (R47 to R51) -/

/-- A segment with an intact, valid segment tag (R47). -/
structure Member where
  seg : SegNo
  tag : SegTag
deriving DecidableEq, Repr

/-- How far one contender has been read (R48). -/
structure Contender where
  member : Member
  sound  : Bool
  pages  : Nat
deriving DecidableEq, Repr

/-- The members of one (track ID, generation), by ordinal (R47, R48). -/
structure Group where
  trackId : Nat
  gen     : Nat
  kind    : TrackKind
  lang    : Lang
  members : List Member
deriving DecidableEq, Repr

/-- A group with its seal summary, present when it is sealed (R49). -/
structure Judged where
  group   : Group
  summary : Option Summary
deriving DecidableEq, Repr

/-- Where a bank's mount stands. `scan`: the segment whose page 0 tag slot 0 is being read. `contest`: the
contenders of one ordinal still to be read, the first being read at `page` with `pages` counted, those read, and
the contests that follow. `judge`: the group whose last written page is being sought between `lo` (written) and
`hi` (not), read when they are neighbours, the groups that follow and those judged. `finished`: the groups kept. -/
inductive MountPhase where
  | scan (seg : SegNo)
  | contest (cands : List Member) (page pages : Nat) (done : List Contender) (rest : List (List Member))
  | judge (group : Group) (lo hi : Nat) (rest : List Group) (judged : List Judged)
  | finished (kept : List Judged)
deriving DecidableEq, Repr

structure MountProgress where
  phase   : MountPhase
  toFree  : List SegNo
  toClear : List SegNo
  members : List Member
deriving DecidableEq, Repr

/-- The volatile state of one store controller. -/
structure Bank where
  segs     : Vector SegEntry 2048
  free     : List SegNo
  clearQ   : List SegNo
  retired  : List SegNo
  drain    : List SegNo
  fetchQ   : List FetchReq
  runCount : Nat
  rotation : Rotation
  loadBuf  : Option LoadBuf
  moveReg  : Option MoveReg
  op       : Option Op
  halted   : Bool
  mount    : Option MountProgress
deriving DecidableEq, Repr

/-- The nonvolatile array of one bank: the data bytes that are written and the tag slots that are not blank. -/
structure BankArray where
  data  : Memory
  slots : KeyList TagSlot
deriving DecidableEq, Repr

/-! ### The event unit (R180 to R182) -/

/-- The classes of a room scope, in the order of the table of chapter 11. -/
inductive RoomClass where
  | state | syncLost | underrun | pageCheck | feedOverflow | liveSent | lineConflict | landed
deriving DecidableEq, Repr

/-- The classes of the device scope. -/
inductive DeviceClass where
  | linkError | linkOverrun | writeFail | segmentsLow | mountDone
deriving DecidableEq, Repr

/-- A pair of scope and class. -/
inductive EventId where
  | room (r : RoomNo) (c : RoomClass)
  | device (c : DeviceClass)
deriving DecidableEq, Repr

structure Latch where
  set_   : Bool
  count  : Nat
  queued : Bool
deriving DecidableEq, Repr

structure EventUnit where
  switch   : Bool
  mask     : BitVec 16
  roomLatch : Vector (Vector Latch 8) 16
  devLatch : Vector Latch 5
  owed     : List EventId
deriving DecidableEq, Repr

/-! ### The control link (R169, R171, R175) -/

inductive Receiver where
  | hunt
  | framing (bytes : List Byte)
deriving DecidableEq, Repr

/-- A command holding an inbound place (R171). `track` is the track a deferred command works on. -/
structure Inbound where
  place    : Nat
  tag      : Byte
  type     : Nat
  track    : Nat
  answered : Bool
deriving DecidableEq, Repr

/-- A message of the outbound queue (R175). A reply names the inbound place it frees. -/
inductive OutMsg where
  | reply (place : Nat) (tag : Byte) (done : Bool) (body : List Byte)
  | notice (event : EventId) (count : Nat)
deriving DecidableEq, Repr

/-- The control link (R167 to R178). `sendTicks` counts the base ticks for which the head of the outbound queue has been
sent. -/
structure Link where
  rate      : Nat
  receiver  : Receiver
  gap       : Option Nat
  inbound   : List Inbound
  outbound  : List OutMsg
  resetting : Bool
  sendTicks : Nat
deriving DecidableEq, Repr

/-! ### The whole part -/

structure State where
  powered : Bool
  link    : Link
  evu     : EventUnit
  lines   : Vector Line 48
  rooms   : Vector Room 16
  roster  : Vector (Option RosterEntry) 512
  tracks  : List Track
  banks   : Vector Bank 2
  arrays  : Vector BankArray 2
  pending : List Instr
deriving DecidableEq, Repr

/-- The reasons a step can stop with a fault. The spec names no condition that stops the part: what it detects it
reports by a latch, a REFUSED reply or a binding state. No meaning raises this. -/
inductive Fault where
  /-- Raised by no meaning (safe: a model that never stops proves nothing by stopping). -/
  | none
deriving DecidableEq, Repr

/-- The reasons a command can be refused a meaning. -/
inductive Refusal where
  /-- Raised by exec for a row that has no meaning yet (safe: the run stops there). No row is in this case. -/
  | notModelled (mnemonic : String)
deriving DecidableEq, Repr

/-! ### Power-on values -/

def Holds.empty : Holds := ⟨false, false, false⟩

/-- A room's show clock after power-on (R53): channel room number + 1. -/
def Clock.initial (room : Nat) : Clock where
  show_ := .dark
  pos := 0
  endPos := none
  holds := Holds.empty
  mode := .external
  rate := 24
  p := none
  nominal := none
  current := none
  pendingDiv := none
  chain := .stopped
  syncTimer := none
  frameLine := none
  runLine := none
  emitLine := none
  tallyLine := none
  channel := room + 1
  carousel := 50

/-- A binding after power-on (R72). -/
def Binding.initial : Binding where
  state := .unbound
  track := .none
  kind := none
  lang := none
  bank := 0
  gen := 0
  issued := none
  fetch := .empty
  serve := none
  loaded := false
  endTaken := false
  part := none
  nextSerial := 1
  skipTo := none
  locate := .none
  staging := []
  window := []
  prompt := []
  rept := []
  clip := none
  nextClip := .none
  scan := none
  block := none

/-- A slot used alike in both parities. -/
def SlotEntry.both (c : Carrier) : SlotEntry := ⟨c, c⟩

/-- The default map (R136): slots 1 and 2 binding 0, 3 and 4 binding 1, 5 and 6 binding 2, 7 and 8 binding 3,
9 directives, 10 to 39 empty. -/
def SlotMap.default : SlotMap :=
  (#v[SlotEntry.both (.binding 0), SlotEntry.both (.binding 0), SlotEntry.both (.binding 1),
      SlotEntry.both (.binding 1), SlotEntry.both (.binding 2), SlotEntry.both (.binding 2),
      SlotEntry.both (.binding 3), SlotEntry.both (.binding 3), SlotEntry.both .directives] : Vector SlotEntry 9) ++
    Vector.replicate 30 (SlotEntry.both .empty)

/-- A round composer after power-on (R130). -/
def Composer.initial : Composer where
  roundTimer := none
  counter := 0
  rotation := 0
  active := SlotMap.default
  pendingMap := none
  tx := none

/-- Everything of one room after power-on. -/
def Room.initial (room : Nat) : Room where
  clock := Clock.initial room
  bindings := Vector.replicate 4 Binding.initial
  ring := []
  liveSerial := 1
  comp := Composer.initial
  rota := []
  cursor := none
  urgent := []

def Rooms.initial : Vector Room 16 :=
  #v[.initial 0, .initial 1, .initial 2, .initial 3, .initial 4, .initial 5, .initial 6, .initial 7, .initial 8,
    .initial 9, .initial 10, .initial 11, .initial 12, .initial 13, .initial 14, .initial 15]

/-- The mount as it begins (R47): the page 0 tag of segment 0 is read first. -/
def MountProgress.start : MountProgress where
  phase := .scan 0
  toFree := []
  toClear := []
  members := []

/-- A store controller after power-on (R22), its mount begun and its first tag read granted (R13, R47). -/
def Bank.initial : Bank where
  segs := Vector.replicate 2048 ⟨.unmounted, 0, none⟩
  free := []
  clearQ := []
  retired := []
  drain := []
  fetchQ := []
  runCount := 0
  rotation := .load
  loadBuf := none
  moveReg := none
  op := some (.tagRead 0 0 0)
  halted := false
  mount := some MountProgress.start

def Latch.clear : Latch := ⟨false, 0, false⟩

/-- The event unit after power-on (R186): the switch off, the mask naming all thirteen classes. -/
def EventUnit.initial : EventUnit where
  switch := false
  mask := 0x1FFF#16
  roomLatch := Vector.replicate 16 (Vector.replicate 8 Latch.clear)
  devLatch := Vector.replicate 5 Latch.clear
  owed := []

/-- The link after power-on at a rate (R178). -/
def Link.initial (rate : Nat) : Link where
  rate := rate
  receiver := .hunt
  gap := none
  inbound := []
  outbound := []
  resetting := false
  sendTicks := 0

/-- A line with the plain setting of power-on (R159): an undriven input with no pull reads what drives it from
outside, or keeps the level it last had (R164). -/
def Line.powerOn (l : Line) : Line where
  dirOut := false
  level := false
  pull := .none
  pin := l.outside.getD l.pin
  outside := l.outside

/-- Every block in its power-on state, the arrays, the link rate, the outside of the pins and the queue of
waiting commands being as given (R177, R178, R22, R186, R72, R130, R146, R159). -/
def State.powerOnValues (rate : Nat) (lines : Vector Line 48) (arrays : Vector BankArray 2)
    (pending : List Instr) : State where
  powered := true
  link := Link.initial rate
  evu := EventUnit.initial
  lines := lines.map Line.powerOn
  rooms := Rooms.initial
  roster := Vector.replicate 512 none
  tracks := []
  banks := Vector.replicate 2 Bank.initial
  arrays := arrays
  pending := pending

/-- A line that nothing has ever driven (log 5: DESIGN CHOICE, the spec gives its level no first value). -/
def Line.untouched : Line := ⟨false, false, .none, false, none⟩

/-- An array in which nothing has been written (log 2: DESIGN CHOICE). -/
def BankArray.blank : BankArray := ⟨[], []⟩

/-- The part right after power-on: every block at the value its chapter gives, the mount of each bank begun
(R47, R178), blank arrays (log 2), and the rate of both straps low (log 5). -/
def State.reset : State :=
  State.powerOnValues 115200 (Vector.replicate 48 Line.untouched) (Vector.replicate 2 BankArray.blank) []

end Sys2Proof.Machine
end

