-- ==== Sys2Proof/Machine/Ops.lean ====
section
/-! DEFINITION. The named operations every block uses: byte order and the check (chapter 12), the array of a bank
(R1 to R3, R7 to R11 as far as the array goes), the homes of the state's parts, and the inbound places and replies
of the control link (R171 to R175). -/

namespace Sys2Proof.Machine

open Sys2Proof

/-! ### Bytes (chapter 12: most significant byte first) -/

/-- `v` in `n` bytes, most significant first. -/
def beBytes : Nat → Nat → List Byte
  | 0, _ => []
  | n + 1, v => BitVec.ofNat 8 (v / 256 ^ n) :: beBytes n v

/-- The number whose bytes, most significant first, these are. -/
def beNat (bytes : List Byte) : Nat := bytes.foldl (fun acc b => acc * 256 + b.toNat) 0

/-- The `n`-byte field at byte `i` of a body. -/
def field (body : List Byte) (i n : Nat) : Nat := beNat ((body.drop i).take n)

def u8 (v : Nat) : List Byte := beBytes 1 v
def u16 (v : Nat) : List Byte := beBytes 2 v
def u24 (v : Nat) : List Byte := beBytes 3 v
def u32 (v : Nat) : List Byte := beBytes 4 v

/-- R188: 00h no, 01h yes. -/
def flagByte (b : Bool) : List Byte := [if b then 1 else 0]

/-- R188: presence byte, then the field, all 00h when absent. -/
def optBytes (n : Nat) : Option Nat → List Byte
  | none => 0 :: beBytes n 0
  | some v => 1 :: beBytes n v

def Lang.bytes (l : Lang) : List Byte := [l.a, l.b, l.c]

/-! ### The check (R187) -/

/-- One input bit: shift left by one, and add 1021h when the bit shifted out differs from the input bit. -/
def crcBit (reg : Check) (bit : Bool) : Check :=
  if reg.msb != bit then (reg <<< 1) ^^^ 0x1021#16 else reg <<< 1

/-- One byte, most significant bit first. -/
def crcByte (reg : Check) (b : Byte) : Check :=
  [7, 6, 5, 4, 3, 2, 1, 0].foldl (fun r i => crcBit r (b.getLsbD i)) reg

/-- The check over a list of bytes: the register starts at FFFFh and is not inverted. -/
def crc (bytes : List Byte) : Check := bytes.foldl crcByte 0xFFFF#16

/-! ### Sorted keyed lists -/

/-- The value at a key, none where the key is not listed. -/
def lookup {α : Type} : KeyList α → Nat → Option α
  | [], _ => none
  | (k', v) :: t, k => if k' = k then some v else lookup t k

/-- The value at a key set, the keys staying strictly rising. -/
def store {α : Type} : KeyList α → Nat → α → KeyList α
  | [], k, v => [(k, v)]
  | (k', v') :: t, k, v =>
    if k < k' then (k, v) :: (k', v') :: t
    else if k = k' then (k, v) :: t
    else (k', v') :: store t k v

/-- Every key that meets the test removed. -/
def eraseWhere {α : Type} (p : Nat → Bool) (m : KeyList α) : KeyList α := m.filter (fun c => !p c.1)

/-- The canonical form: keys strictly rising. An unlisted data cell is unwritten and an unlisted slot blank, and
no value listed stands for either, so no entry equals what an unlisted key reads as. -/
abbrev Keys.wf {α : Type} (m : KeyList α) : Prop := m.Pairwise (fun a b => a.1 < b.1)

/-- The canonical form of a bank's array. -/
abbrev Memory.wf (a : BankArray) : Prop := Keys.wf a.data ∧ Keys.wf a.slots

/-! ### The array of a bank -/

/-- The key of a data byte. -/
def cellKey (seg : SegNo) (page off : Nat) : Nat :=
  (seg.val * Config.pagesPerSegment + page) * Config.pageBytes + off

/-- The key of a tag slot. -/
def slotKey (seg : SegNo) (page slot : Nat) : Nat :=
  (seg.val * Config.pagesPerSegment + page) * Config.slotsPerPage + slot

/-- A data byte: none where it is unwritten (R1). -/
def BankArray.cell (a : BankArray) (seg : SegNo) (page off : Nat) : Option Byte := lookup a.data (cellKey seg page off)

/-- A data byte as a read sees it: an unwritten byte reads as FFh (R1). -/
def BankArray.byte (a : BankArray) (seg : SegNo) (page off : Nat) : Byte := (a.cell seg page off).getD 0xFF#8

/-- A tag slot: none where it is blank (R2). -/
def BankArray.slot (a : BankArray) (seg : SegNo) (page slot : Nat) : Option TagSlot := lookup a.slots (slotKey seg page slot)

/-- Data bytes 0 to n - 1 of a page. -/
def BankArray.bytes (a : BankArray) (seg : SegNo) (page n : Nat) : List Byte :=
  (List.range n).map (fun i => a.byte seg page i)

/-- The page's highest-numbered tag slot that is not blank, with its number (R1). -/
def BankArray.topSlot (a : BankArray) (seg : SegNo) (page : Nat) : Option (Nat × TagSlot) :=
  match a.slot seg page 3, a.slot seg page 2, a.slot seg page 1, a.slot seg page 0 with
  | some t, _, _, _ => some (3, t)
  | none, some t, _, _ => some (2, t)
  | none, none, some t, _ => some (1, t)
  | none, none, none, some t => some (0, t)
  | none, none, none, none => none

/-- What a read of a page gives when the array reads as it stands (R7). -/
def BankArray.view (a : BankArray) (seg : SegNo) (page : Nat) : PageView :=
  match a.topSlot seg page with
  | none => ⟨none, []⟩
  | some (i, t) => ⟨some (i, t), a.bytes seg page t.fill⟩

def SegTag.bytes (t : SegTag) : List Byte :=
  u16 t.trackId ++ u8 t.kind ++ Lang.bytes t.lang ++ u8 t.gen ++ u8 t.ordinal ++ u24 t.entry

/-- The fields before the tag check, in the order of R2's table and the widths of R188 (log 1: DESIGN CHOICE,
the spec gives the record no byte layout). -/
def tagFieldBytes (ordinal fill : Nat) (dataCheck : Check) (segTag : Option SegTag) : List Byte :=
  u8 ordinal ++ u16 fill ++ u16 dataCheck.toNat ++ (match segTag with | none => [] | some t => SegTag.bytes t)

/-- The tag slot record a write makes (R8): slot i holds ordinal i + 1, and the tag check covers the other fields. -/
def makeSlot (slot fill : Nat) (dataCheck : Check) (segTag : Option SegTag) : TagSlot where
  ordinal := slot + 1
  fill := fill
  dataCheck := dataCheck
  segTag := segTag
  tagCheck := crc (tagFieldBytes (slot + 1) fill dataCheck segTag)

/-- R2: intact when the tag check matches the other fields and the ordinal is the slot number plus 1. -/
def slotIntact (i : Nat) (t : TagSlot) : Bool :=
  decide (t.tagCheck = crc (tagFieldBytes t.ordinal t.fill t.dataCheck t.segTag)) && decide (t.ordinal = i + 1)

/-- The same record left damaged: its tag check does not match. -/
def damageSlot (t : TagSlot) : TagSlot :=
  { t with tagCheck := ~~~ (crc (tagFieldBytes t.ordinal t.fill t.dataCheck t.segTag)) }

/-- R7's judgement of a page read: the fill mark and the data, or none for CHECK_FAIL. -/
def judgePage (v : PageView) : Option (Nat × List Byte) :=
  match v.slot with
  | none => some (0, [])
  | some (i, t) =>
    if slotIntact i t ∧ v.data.length = t.fill ∧ t.dataCheck = crc v.data then some (t.fill, v.data) else none

/-- Unwritten cells from key `k` upward take the bytes held; written ones keep their values (R1). -/
def takeCells : Memory → Nat → List (Option Byte) → Memory
  | m, _, [] => m
  | m, k, h :: t =>
    match lookup m k, h with
    | none, some b => takeCells (store m k b) (k + 1) t
    | _, _ => takeCells m (k + 1) t

/-- A blank slot takes the record held; one that is not blank keeps its record. -/
def takeSlot (m : KeyList TagSlot) (k : Nat) : Option TagSlot → KeyList TagSlot
  | none => m
  | some t => match lookup m k with
    | none => store m k t
    | some _ => m

/-- The array after a write of a tag slot and data bytes at the page's fill mark (R8, R11) left as `held` says. -/
def BankArray.hold (a : BankArray) (seg : SegNo) (page slot fillBefore : Nat) (heldSlot : Option TagSlot)
    (heldData : List (Option Byte)) : BankArray where
  data := takeCells a.data (cellKey seg page fillBefore) heldData
  slots := takeSlot a.slots (slotKey seg page slot) heldSlot

/-- The data of a flaw brought to the write's length: a byte it does not mention stayed unwritten. -/
def flawData (n : Nat) (d : List (Option Byte)) : List (Option Byte) := (List.range n).map (fun i => (d[i]?).getD none)

/-- A write of `data` at `fillBefore` under the tag record `tag`: the array after it and whether the array
confirms the tag slot and every data byte (R8). A write onto bytes already written completes FAIL (R47). -/
def BankArray.write (a : BankArray) (seg : SegNo) (page slot fillBefore : Nat) (tag : TagSlot) (data : List Byte)
    (flaw : Option WriteFlaw) : BankArray × Bool :=
  let fresh : Bool := (a.slot seg page slot).isNone &&
    (List.range data.length).all (fun i => (a.cell seg page (fillBefore + i)).isNone)
  match flaw with
  | none => (a.hold seg page slot fillBefore (some tag) (data.map some), fresh)
  | some f =>
    let held := flawData data.length f.data
    (a.hold seg page slot fillBefore f.slot held, fresh && decide (f.slot = some tag) && decide (held = data.map some))

/-- The data cells of a segment. -/
def inSegCells (seg : SegNo) (k : Nat) : Bool := decide (k / (Config.pagesPerSegment * Config.pageBytes) = seg.val)

/-- The tag slots of a segment. -/
def inSegSlots (seg : SegNo) (k : Nat) : Bool := decide (k / (Config.pagesPerSegment * Config.slotsPerPage) = seg.val)

/-- A segment clear (R9): every byte of the segment unwritten, save what the flaw says stayed written. The outcome
is PASS when every byte is unwritten. -/
def BankArray.clear (a : BankArray) (seg : SegNo) (flaw : ClearFlaw) : BankArray × Bool :=
  let data := eraseWhere (inSegCells seg) a.data
  let slots := eraseWhere (inSegSlots seg) a.slots
  (⟨flaw.cells.foldl (fun m c => store m (cellKey seg 0 c.1) c.2) data,
    flaw.slots.foldl (fun m c => store m (slotKey seg 0 c.1) c.2) slots⟩,
   flaw.cells.isEmpty && flaw.slots.isEmpty)

/-- One tag slot of page 0 as a clear cut short left it (R12). -/
def fateSlot (m : KeyList TagSlot) (k : Nat) : SlotFate → KeyList TagSlot
  | .intact => m
  | .blank => eraseWhere (fun k' => decide (k' = k)) m
  | .damaged => match lookup m k with
    | none => m
    | some t => store m k (damageSlot t)

/-- A clear cut by a power failure (R12): pages from n (at least 1) upward unwritten, the lower pages intact, page
0's tag slots as their fates say. -/
def BankArray.cutClear (a : BankArray) (seg : SegNo) (n : Nat) (f0 f1 f2 f3 : SlotFate) : BankArray :=
  let n := max n 1
  let data := eraseWhere (fun k => inSegCells seg k && decide (cellKey seg n 0 ≤ k)) a.data
  let slots := eraseWhere (fun k => inSegSlots seg k && decide (slotKey seg n 0 ≤ k)) a.slots
  ⟨data, fateSlot (fateSlot (fateSlot (fateSlot slots (slotKey seg 0 0) f0) (slotKey seg 0 1) f1) (slotKey seg 0 2) f2)
    (slotKey seg 0 3) f3⟩

/-! ### The homes of the state's parts -/

def State.modLink (s : State) (f : Link → Link) : State := { s with link := f s.link }
def State.modEvu (s : State) (f : EventUnit → EventUnit) : State := { s with evu := f s.evu }
def State.modRoom (s : State) (r : RoomNo) (f : Room → Room) : State := { s with rooms := s.rooms.set r (f s.rooms[r]) }
def State.modBank (s : State) (k : BankNo) (f : Bank → Bank) : State := { s with banks := s.banks.set k (f s.banks[k]) }
def State.modLine (s : State) (l : LineNo) (f : Line → Line) : State := { s with lines := s.lines.set l (f s.lines[l]) }
def State.setArray (s : State) (k : BankNo) (a : BankArray) : State := { s with arrays := s.arrays.set k a }
def State.setEntry (s : State) (i : RosterIx) (e : Option RosterEntry) : State := { s with roster := s.roster.set i e }
def State.modClock (s : State) (r : RoomNo) (f : Clock → Clock) : State :=
  s.modRoom r (fun room => { room with clock := f room.clock })
def State.modComp (s : State) (r : RoomNo) (f : Composer → Composer) : State :=
  s.modRoom r (fun room => { room with comp := f room.comp })
def State.modBinding (s : State) (r : RoomNo) (i : BindNo) (f : Binding → Binding) : State :=
  s.modRoom r (fun room => { room with bindings := room.bindings.set i (f room.bindings[i]) })
def State.modSeg (s : State) (k : BankNo) (g : SegNo) (f : SegEntry → SegEntry) : State :=
  s.modBank k (fun b => { b with segs := b.segs.set g (f b.segs[g]) })

def State.clock (s : State) (r : RoomNo) : Clock := s.rooms[r].clock
def State.binding (s : State) (r : RoomNo) (i : BindNo) : Binding := s.rooms[r].bindings[i]

/-- All rooms, in number order. -/
def allRooms : List RoomNo := List.finRange 16
def allBindings : List BindNo := List.finRange 4
def allLines : List LineNo := List.finRange 48
def allEntries : List RosterIx := List.finRange 512
def allSegs : List SegNo := List.finRange 2048

/-! ### The track directory -/

/-- The entry of a track ID (R24). -/
def State.track? (s : State) (id : Nat) : Option Track := s.tracks.find? (fun t => decide (t.id = id))

/-- The entry of a track ID changed. -/
def State.modTrack (s : State) (id : Nat) (f : Track → Track) : State :=
  { s with tracks := s.tracks.map (fun t => if t.id = id then f t else t) }

/-- An entry added, the directory staying in ascending track ID. -/
def insertTrack (t : Track) : List Track → List Track
  | [] => [t]
  | u :: us => if t.id < u.id then t :: u :: us else u :: insertTrack t us

def State.addTrack (s : State) (t : Track) : State := { s with tracks := insertTrack t s.tracks }
def State.removeTrack (s : State) (id : Nat) : State := { s with tracks := s.tracks.filter (fun t => !decide (t.id = id)) }

/-- While either bank's mount has not completed, the store is mounting (R25, R51). -/
def State.mounting (s : State) : Bool := s.banks[0].mount.isSome || s.banks[1].mount.isSome

/-! ### Inbound places and replies (R171 to R175) -/

/-- The reasons of a REFUSED reply (R174). -/
inductive Reason where
  | unknownType | badLength | badArg | badState | busy | noSpace | notFound | inUse | order | badCue | rewind
  | mounting | moveFailed
deriving DecidableEq, Repr

/-- R188's code of a reason. -/
def Reason.code : Reason → Nat
  | .unknownType => 1
  | .badLength => 2
  | .badArg => 3
  | .badState => 4
  | .busy => 5
  | .noSpace => 6
  | .notFound => 7
  | .inUse => 8
  | .order => 9
  | .badCue => 10
  | .rewind => 11
  | .mounting => 12
  | .moveFailed => 13

/-- The lowest of the eight places that no command holds. -/
def freePlace (inbound : List Inbound) : Nat :=
  ((List.range Config.inboundPlaces).find? (fun p => !(inbound.any (fun c => decide (c.place = p))))).getD 0

/-- A command enters the tail of the inbound queue, open (R171). -/
def Link.enter (l : Link) (place : Nat) (tag : Byte) (type : Nat) : Link :=
  { l with inbound := l.inbound ++ [⟨place, tag, type, 0, false⟩] }

/-- The tag of the command holding a place. -/
def Link.tagOf (l : Link) (place : Nat) : Byte :=
  match l.inbound.find? (fun c => decide (c.place = place)) with
  | some c => c.tag
  | none => 0

/-- The reply to the command at a place is produced: the command becomes answered and the reply joins the tail of
the outbound queue (R171, R175). -/
def Link.answer (l : Link) (place : Nat) (done : Bool) (body : List Byte) : Link :=
  { l with
    inbound := l.inbound.map (fun c => if c.place = place then { c with answered := true } else c)
    outbound := l.outbound ++ [.reply place (l.tagOf place) done body] }

/-- DONE with a body. -/
def State.done (s : State) (place : Nat) (body : List Byte) : State := s.modLink (fun l => l.answer place true body)

/-- REFUSED with a reason and a detail (R174, R189). -/
def State.refuse (s : State) (place : Nat) (reason : Reason) (detail : Nat) : State :=
  s.modLink (fun l => l.answer place false (u8 reason.code ++ u32 detail))

/-- A command is left open, its work being on the track named (R173). -/
def State.defer (s : State) (place track : Nat) : State :=
  s.modLink (fun l =>
    { l with inbound := l.inbound.map (fun c => if c.place = place then { c with track := track } else c) })

/-- The place of the open command of a type that works on a track. A command discarded by SOFT_RESET has none. -/
def State.openPlace? (s : State) (type track : Nat) : Option Nat :=
  (s.link.inbound.find? (fun c => decide (c.type = type) && decide (c.track = track) && !c.answered)).map (·.place)

/-- The deferred DONE of a command, at the event that ends its work (R173). -/
def State.doneDeferred (s : State) (type track : Nat) (body : List Byte) : State :=
  match s.openPlace? type track with
  | none => s
  | some p => s.done p body

/-- The deferred REFUSED of a command (R173, R174). -/
def State.refuseDeferred (s : State) (type track : Nat) (reason : Reason) (detail : Nat) : State :=
  match s.openPlace? type track with
  | none => s
  | some p => s.refuse p reason detail

/-- The event that an owner's rule ends in a room number above 15 is refused BAD_ARG; otherwise the owner acts. -/
def State.withRoom (s : State) (place room : Nat) (own : RoomNo → State) : State :=
  if h : room < 16 then own ⟨room, h⟩ else s.refuse place .badArg 0

end Sys2Proof.Machine
end

