-- ==== Sys2Proof/Machine/Flags.lean ====
section
/-! DEFINITION. The event unit's latches, notices and owed list (chapter 11): what a raise does, and how the owed
list is served. -/

namespace Sys2Proof.Machine

open Sys2Proof

/-- R188's code of a room class; its place in the room's scope. -/
def RoomClass.index : RoomClass → Fin 8
  | .state => 0
  | .syncLost => 1
  | .underrun => 2
  | .pageCheck => 3
  | .feedOverflow => 4
  | .liveSent => 5
  | .lineConflict => 6
  | .landed => 7

/-- A device class's place in the device scope. -/
def DeviceClass.index : DeviceClass → Fin 5
  | .linkError => 0
  | .linkOverrun => 1
  | .writeFail => 2
  | .segmentsLow => 3
  | .mountDone => 4

def allRoomClasses : List RoomClass :=
  [.state, .syncLost, .underrun, .pageCheck, .feedOverflow, .liveSent, .lineConflict, .landed]

def allDeviceClasses : List DeviceClass := [.linkError, .linkOverrun, .writeFail, .segmentsLow, .mountDone]

/-- R188's class code: the room classes 0 to 7, the device classes 8 to 12. -/
def EventId.classCode : EventId → Nat
  | .room _ c => c.index.val
  | .device c => 8 + c.index.val

/-- R188's scope code: rooms 0 to 15, device 16. -/
def EventId.scopeCode : EventId → Nat
  | .room r _ => r.val
  | .device _ => 16

/-- Every latch, in ascending scope and within a scope in the order of chapter 11's table (R183). -/
def allEvents : List EventId :=
  (allRooms.flatMap (fun r => allRoomClasses.map (fun c => EventId.room r c))) ++ allDeviceClasses.map EventId.device

/-- The latch of one class in one scope (R180). -/
def EventUnit.latch (u : EventUnit) : EventId → Latch
  | .room r c => u.roomLatch[r][c.index]
  | .device c => u.devLatch[c.index]

def EventUnit.setLatch (u : EventUnit) (e : EventId) (l : Latch) : EventUnit :=
  match e with
  | .room r c => { u with roomLatch := u.roomLatch.set r (u.roomLatch[r].set c.index l) }
  | .device c => { u with devLatch := u.devLatch.set c.index l }

/-- R181: a class is effectively enabled while the switch is on and the mask names it. -/
def EventUnit.enabled (u : EventUnit) (e : EventId) : Bool := u.switch && u.mask.getLsbD e.classCode

def OutMsg.isNotice : OutMsg → Bool
  | .reply .. => false
  | .notice .. => true

/-- The notices in the outbound queue. -/
def Link.notices (l : Link) : Nat := l.outbound.countP OutMsg.isNotice

/-- A notice of a latch joins the tail of the outbound queue with the latch's count, and its notice-queued flag is
set (R180, R181). -/
def State.queueNotice (s : State) (e : EventId) : State :=
  let l := s.evu.latch e
  { s with
    evu := s.evu.setLatch e { l with queued := true }
    link := { s.link with outbound := s.link.outbound ++ [.notice e l.count] } }

/-- One occurrence of one class in one scope (R180, R181). -/
def State.raise (s : State) (e : EventId) : State :=
  let l := s.evu.latch e
  if l.set_ then
    s.modEvu (fun u => u.setLatch e { l with count := min 255 (l.count + 1) })
  else
    let s1 := s.modEvu (fun u => u.setLatch e { l with set_ := true, count := 1 })
    if s.evu.enabled e then
      if s.link.notices < Config.outboundNotices then s1.queueNotice e
      else s1.modEvu (fun u => { u with owed := u.owed ++ [e] })
    else s1

/-- A raise in a room's scope. -/
def State.raiseRoom (s : State) (r : RoomNo) (c : RoomClass) : State := s.raise (.room r c)

/-- A raise in the device scope. -/
def State.raiseDevice (s : State) (c : DeviceClass) : State := s.raise (.device c)

/-- R182: entries are taken off the head of the owed list and their notices queued until 24 notices are queued or
the list is empty. `n` bounds the entries served. -/
def serveOwedN : Nat → State → State
  | 0, s => s
  | n + 1, s =>
    match s.evu.owed with
    | [] => s
    | e :: rest =>
      if s.link.notices < Config.outboundNotices then
        serveOwedN n ((s.modEvu (fun u => { u with owed := rest })).queueNotice e)
      else s

/-- R182. -/
def State.serveOwed (s : State) : State := serveOwedN s.evu.owed.length s

/-- A latch cleared: flag, count and notice-queued flag, and its entry on the owed list (R180, R185). -/
def State.clearLatch (s : State) (e : EventId) : State :=
  s.modEvu (fun u => { u.setLatch e Latch.clear with owed := u.owed.filter (fun o => !decide (o = e)) })

/-- A room's scope cleared at ROOM_RESET (R186). -/
def State.clearRoomScope (s : State) (r : RoomNo) : State :=
  allRoomClasses.foldl (fun s c => s.clearLatch (.room r c)) s

end Sys2Proof.Machine
end

