-- ==== Sys2Proof/Machine/Operands.lean ====
section
/-! DEFINITION. The forms in which values travel: cue records (R190), the fields of command bodies (R188, R189)
and the code tables of R188 as replies carry them. -/

namespace Sys2Proof.Machine

open Sys2Proof

/-! ### Cue records (R190) -/

/-- A cue header: for a TEXT cue `len` is its text length, for a VOICE clip its block count. -/
structure Header where
  start : Nat
  stop  : Nat
  len   : Nat
  style : Byte
deriving DecidableEq, Repr

/-- R190's kind byte; R188's code of a track kind. -/
def TrackKind.code : TrackKind → Nat
  | .text => 1
  | .voice => 2

/-- The track kind of a code, as a command or a segment tag gives it. -/
def TrackKind.ofCode? (c : Nat) : Option TrackKind :=
  if c = 1 then some .text else if c = 2 then some .voice else none

/-- Length of every header and of the END record (R26). -/
def headerBytes : Nat := 12

/-- The END record's kind byte (R190). -/
def endKind : Byte := 0x0F#8

/-- The header that begins these bytes, when it lies wholly in them, has the track's kind, and its frames and
lengths are in range: text length 1 to 244, block count 1 to 3000 (R27), frames at most 16,777,215 (R188). -/
def readHeader (kind : TrackKind) (bytes : List Byte) : Option Header :=
  if bytes.length < headerBytes ∨ field bytes 0 1 ≠ kind.code then none
  else
    let start := field bytes 1 4
    let stop := field bytes 5 4
    if Config.maxPosition < start ∨ Config.maxPosition < stop then none
    else match kind with
      | .text =>
        let len := field bytes 10 2
        if len = 0 ∨ 244 < len then none else some ⟨start, stop, len, (bytes[9]?).getD 0⟩
      | .voice =>
        let len := field bytes 9 3
        if len = 0 ∨ 3000 < len then none else some ⟨start, stop, len, 0⟩

/-- R27: the body length a header opens. -/
def Header.bodyBytes (h : Header) : TrackKind → Nat
  | .text => h.len
  | .voice => 32 * h.len

/-- The END record of a track (R190). -/
def endRecord (count lastEnd longest gen : Nat) : List Byte :=
  endKind :: (u16 count ++ u32 lastEnd ++ u32 longest ++ u8 gen)

/-- R28, R47: three letters A to Z. -/
def Lang.valid (l : Lang) : Bool :=
  [l.a, l.b, l.c].all (fun x => decide (0x41 ≤ x.toNat) && decide (x.toNat ≤ 0x5A))

/-! ### Codes of R188 as replies and beacons carry them -/

def ShowState.code : ShowState → Nat
  | .dark => 0
  | .armed => 1
  | .running => 2
  | .held => 3
  | .ended => 4

def BState.code : BState → Nat
  | .unbound => 0
  | .priming => 1
  | .playing => 2
  | .starved => 3
  | .faulted => 4
  | .finished => 5
  | .unbinding => 6

/-- Binding kind: 0 NONE, 1 TEXT, 2 VOICE, 3 LIVE. -/
def kindCode : Option BKind → Nat
  | none => 0
  | some .text => 1
  | some .voice => 2
  | some .live => 3

def TrackState.code : TrackState → Nat
  | .loading => 0
  | .sealed => 1
  | .moving => 2
  | .incomplete => 3
  | .deleting => 4

def SyncMode.code : SyncMode → Nat
  | .external => 0
  | .internal => 1

def Pull.code : Pull → Nat
  | .none => 0
  | .up => 1
  | .down => 2

def LineFn.code : LineFn → Nat
  | .frameIn => 0
  | .runIn => 1
  | .emitEnable => 2
  | .tally => 3

/-- Hold-cause set: bit 0 HOST, bit 1 RUN_LOW, bit 2 SYNC_LOST. -/
def Holds.code (h : Holds) : Nat := h.host.toNat + 2 * h.runLow.toNat + 4 * h.syncLost.toNat

/-- The track of a binding as ROOM_STATUS reports it: its ID, 0 for LIVE and for none (R73). -/
def TrackRef.reported : TrackRef → Nat
  | .none => 0
  | .stored id => id
  | .live => 0

/-- A line field: the line, or FFh for no line. -/
def lineByte : Option LineNo → List Byte
  | none => [0xFF#8]
  | some l => u8 l.val

/-- A line's holder: room and function, FFh FFh for none. -/
def holderBytes : Option (LineFn × RoomNo) → List Byte
  | none => [0xFF#8, 0xFF#8]
  | some (f, r) => u8 r.val ++ u8 f.code

def TrackPage.bytes (p : TrackPage) : List Byte := u8 p.ord ++ u8 p.pg

/-- The detail of an ordinal and a page (R188): ordinal × 256 + page. -/
def TrackPage.detail (p : TrackPage) : Nat := p.ord * 256 + p.pg

/-- Cue count, last end frame, longest span, end page (R24, R188). Of a last end frame or longest span above 16,777,215,
which only an END record found at the mount can give, the low 3 bytes are sent (the model's choice, log 37). -/
def Summary.bytes (s : Summary) : List Byte := u16 s.count ++ u24 s.lastEnd ++ u24 s.longest ++ s.endPage.bytes

/-- R188's Optional field, for a field given as its bytes, of `n` bytes when absent. -/
def optField (n : Nat) : Option (List Byte) → List Byte
  | none => 0 :: List.replicate n 0
  | some bytes => 1 :: bytes

/-- Slot map carrier: 0 EMPTY, 1 to 4 BINDING 0 to 3, 8 DIRECTIVES. -/
def Carrier.ofCode? (c : Nat) : Option Carrier :=
  if c = 0 then some .empty
  else if h : 1 ≤ c ∧ c ≤ 4 then some (.binding ⟨c - 1, by omega⟩)
  else if c = 8 then some .directives
  else none

/-- A line field of ROOM_SETUP: FFh no line, 0 to 47 a line, anything else out of range (R54, R188). -/
def lineField? (v : Nat) : Option (Option LineNo) :=
  if v = 0xFF then some none else if h : v < 48 then some (some ⟨v, h⟩) else none

/-! ### Command bodies (R189) -/

def langAt (body : List Byte) (i : Nat) : Lang :=
  ⟨(body[i]?).getD 0, (body[i + 1]?).getD 0, (body[i + 2]?).getD 0⟩

/-- The (even, odd) carrier codes of a SLOT_MAP body from its second byte. -/
def pairsOf : List Byte → List (Nat × Nat)
  | a :: b :: t => (a.toNat, b.toNat) :: pairsOf t
  | _ => []

/-- `n` patches read from a TRACK_MOVE body, none when the bytes do not come out even (R172). -/
def patchesOf : Nat → List Byte → Option (List Patch)
  | 0, [] => some []
  | 0, _ :: _ => none
  | n + 1, bytes =>
    if bytes.length < 5 then none
    else
      let len := field bytes 4 1
      let rest := bytes.drop 5
      if rest.length < len then none
      else (patchesOf n (rest.drop len)).map (fun ps => ⟨field bytes 0 4, rest.take len⟩ :: ps)

/-- The body length of a TRACK_MOVE (R189). -/
def moveBodyLength (patches : List Patch) : Nat := 3 + (patches.map (fun p => 5 + p.bytes.length)).sum

end Sys2Proof.Machine
end

