-- ==== Sys2Proof/Machine/Lines.lean ====
section
/-! DEFINITION. The line matrix (chapter 9): the claims the rooms make, which claim holds a line, what drives its pin,
and the levels it hands to show clocks. Claims and holders are worked out from the rooms' setups and show states, so
nothing stored can disagree with them (R159, R161). -/

namespace Sys2Proof.Machine

open Sys2Proof

/-- The line functions in order of rank (R161). -/
def allFns : List LineFn := [.frameIn, .runIn, .emitEnable, .tally]

/-! ### Claims (R161, R162) -/

/-- The line a room's setup names for a function (R161). -/
def Clock.lineOf (c : Clock) : LineFn → Option LineNo
  | .frameIn => c.frameLine
  | .runIn => c.runLine
  | .emitEnable => c.emitLine
  | .tally => c.tallyLine

/-- The functions whose claims are active in a room (R161). -/
def Clock.claims (c : Clock) : LineFn → Bool
  | .frameIn | .runIn => !decide (c.show_ = .dark) && decide (c.mode = .external)
  | .emitEnable | .tally => !decide (c.show_ = .dark)

/-- The room has an active claim of a function on a line. -/
def Clock.claimsLine (c : Clock) (f : LineFn) (l : LineNo) : Bool := decide (c.lineOf f = some l) && c.claims f

/-- The active claims on a line, in order of rank: by function, then by room (R161). -/
def State.claimsOn (s : State) (l : LineNo) : List (LineFn × RoomNo) :=
  allFns.flatMap (fun f => (allRooms.filter (fun r => (s.clock r).claimsLine f l)).map (fun r => (f, r)))

/-- The holder: the highest-ranked active claim (R159). -/
def State.holder (s : State) (l : LineNo) : Option (LineFn × RoomNo) := (s.claimsOn l).head?

/-- The active claims that are not the holder (R159). -/
def State.blockedOn (s : State) (l : LineNo) : Nat := (s.claimsOn l).length - 1

/-! ### The pin (R164, R165) -/

/-- TALLY: the room is RUNNING and one of its bindings is PLAYING (R165). -/
def Room.tally (room : Room) : Bool :=
  decide (room.clock.show_ = .running) && room.bindings.any (fun b => decide (b.state = .playing))

/-- The level the part drives a line to, none where it does not drive it (R164, R165). -/
def State.driven (s : State) (l : LineNo) : Option Bool :=
  match s.holder l with
  | some (.frameIn, _) | some (.runIn, _) => none
  | some (.emitEnable, _) => some true
  | some (.tally, r) => some (s.rooms[r]).tally
  | none => if (s.lines[l]).dirOut then some (s.lines[l]).level else none

/-- The level of an undriven pin: what the outside drives, else the pull, else the level it last had (R164). -/
def Line.undriven (line : Line) : Bool :=
  match line.outside, line.pull with
  | some v, _ => v
  | none, .up => true
  | none, .down => false
  | none, .none => line.pin

/-- The pin level of a line as what has it now makes it (R164). Where the part and the outside both drive, the part's
level is taken (log 21). -/
def State.pinNow (s : State) (l : LineNo) : Bool :=
  match s.driven l with
  | some v => v
  | none => (s.lines[l]).undriven

/-- The pin brought to the level of what has the line now. -/
def State.refreshPin (s : State) (l : LineNo) : State := s.modLine l (fun line => { line with pin := s.pinNow l })

/-- The pins of the lines a room's setup names. -/
def Clock.lines (c : Clock) : List LineNo := allFns.filterMap c.lineOf

/-- The room's tally line, where its TALLY claim holds it, driven to the tally level (R165). -/
def State.refreshTally (s : State) (r : RoomNo) : State :=
  match (s.clock r).tallyLine with
  | none => s
  | some l => if s.holder l = some (.tally, r) then s.refreshPin l else s

/-! ### The run level (R59) -/

/-- The effective run level of a room: high with no run line; with one, the pin level while its RUN_IN claim holds the
line, and low otherwise (log 15). -/
def State.runLevel (s : State) (r : RoomNo) : Bool :=
  match (s.clock r).runLine with
  | none => true
  | some l => decide (s.holder l = some (.runIn, r)) && (s.lines[l]).pin

/-- The room's FRAME_IN claim holds its frame line. -/
def State.holdsFrame (s : State) (r : RoomNo) : Bool :=
  match (s.clock r).frameLine with
  | none => false
  | some l => decide (s.holder l = some (.frameIn, r))

/-! ### LINE_CONFLICT (R162) -/

/-- One claim of a room that has just left DARK, judged against the line's holder before: the one of lower rank is
blocked and LINE_CONFLICT raised in its room's scope. -/
def State.judgeClaim (before s : State) (r : RoomNo) (f : LineFn) : State :=
  if (s.clock r).claims f then
    match (s.clock r).lineOf f with
    | none => s
    | some l => match before.holder l with
      | none => s
      | some (_, former) =>
        if s.holder l = some (f, r) then s.raiseRoom former .lineConflict else s.raiseRoom r .lineConflict
  else s

/-- The claims of a room that has just left DARK, in order of function. -/
def State.judgeClaims (before s : State) (r : RoomNo) : State :=
  allFns.foldl (fun s f => before.judgeClaim s r f) s

/-! ### Reports (R160, R166) -/

/-- The direction in effect is OUT: the pin is driven by the part. -/
def State.lineOut (s : State) (l : LineNo) : Bool := (s.driven l).isSome

/-- One line of a LINE_READ reply (R166, R189). -/
def State.lineReport (s : State) (l : LineNo) : List Byte :=
  let line := s.lines[l]
  flagByte line.pin ++ flagByte (s.lineOut l) ++ holderBytes (s.holder l) ++ u8 (s.blockedOn l) ++
    flagByte line.dirOut ++ flagByte line.level ++ u8 line.pull.code

/-- The body of a LINE_READ reply: GL0 to GL47 (R166). -/
def State.linesReport (s : State) : List Byte := allLines.flatMap s.lineReport

end Sys2Proof.Machine
end

