-- ==== Sys2Proof/Machine/Store.lean ====
section
/-! DEFINITION. The store controllers (chapter 1): segment pools, write cursors, references, SEGMENTS_LOW, and the
bank arbiter. What is written and when is in Machine/Tracks.lean, what the mount reads in Machine/Mount.lean. -/

namespace Sys2Proof.Machine

open Sys2Proof

/-! ### SEGMENTS_LOW (R21) -/

/-- The free-plus-clear count: a segment being cleared stays in the clear queue. -/
def Bank.freePlusClear (b : Bank) : Nat := b.free.length + b.clearQ.length

/-- SEGMENTS_LOW is judged over an event, or a part of one, that has led from `before` to `s`: it is raised when the
bank's count has gone from 32 or more to below 32 (R21). -/
def State.judgeLow (before s : State) (k : BankNo) : State :=
  if Config.segmentsLow ≤ (before.banks[k]).freePlusClear ∧ (s.banks[k]).freePlusClear < Config.segmentsLow then
    s.raiseDevice .segmentsLow
  else s

/-! ### Segments between pools (R17 to R20) -/

/-- A segment table entry changed. -/
def Bank.modSeg (b : Bank) (g : SegNo) (f : SegEntry → SegEntry) : Bank := { b with segs := b.segs.set g (f b.segs[g]) }

/-- A fresh write cursor (R4). -/
def Cursor.fresh : Cursor := ⟨0, 0, 0⟩

/-- The head of the free list taken into a pool, with a fresh write cursor (R18). -/
def Bank.takeFree (b : Bank) (g : SegNo) (pool : Pool) : Bank :=
  { (b.modSeg g (fun e => { e with pool := pool, cursor := some Cursor.fresh })) with free := b.free.drop 1 }

/-- A released segment loses its cursor and joins the clear queue, or the drain set while fetches name it (R19). -/
def Bank.release (b : Bank) (g : SegNo) : Bank :=
  if b.segs[g].refs = 0 then
    { (b.modSeg g (fun e => { e with pool := .clearQueue, cursor := none })) with clearQ := b.clearQ ++ [g] }
  else
    { (b.modSeg g (fun e => { e with pool := .drain, cursor := none })) with drain := b.drain ++ [g] }

/-- A segment joins the tail of the retired list and loses its cursor (R8, R11). -/
def Bank.retire (b : Bank) (g : SegNo) : Bank :=
  { (b.modSeg g (fun e => { e with pool := .retired, cursor := none })) with retired := b.retired ++ [g] }

/-- Segments released one by one in the order given (R19). A release never lowers the free-plus-clear count, so it
never raises SEGMENTS_LOW (R21). -/
def State.releaseSegs (s : State) (k : BankNo) (gs : List SegNo) : State :=
  s.modBank k (fun b => gs.foldl Bank.release b)

/-- A fetch naming a segment has completed: its count falls by one (R20). -/
def Bank.lowerRef (b : Bank) (g : SegNo) : Bank := b.modSeg g (fun e => { e with refs := e.refs - 1 })

/-- The count of a segment falls by one, and a drain-set segment whose count reaches 0 moves to the tail of the clear
queue (R20). -/
def Bank.dropRef (b : Bank) (g : SegNo) : Bank :=
  let b1 := b.lowerRef g
  if b1.segs[g].refs = 0 ∧ b1.segs[g].pool = .drain then
    { (b1.modSeg g (fun e => { e with pool := .clearQueue })) with
      drain := b.drain.filter (fun x => !decide (x = g))
      clearQ := b.clearQ ++ [g] }
  else b1

/-- R5: the cursor after a write of n bytes with close indication c is placed. -/
def Cursor.place (c : Cursor) (n : Nat) (close : Bool) : Cursor :=
  if Config.pageBytes ≤ c.fill + n ∨ Config.slotsPerPage ≤ c.writes + 1 ∨ close then ⟨c.page + 1, 0, 0⟩
  else ⟨c.page, c.writes + 1, c.fill + n⟩

/-- R5: the room left under a cursor, 0 when the segment is full. -/
def Cursor.room (c : Cursor) : Nat := if Config.pagesPerSegment ≤ c.page then 0 else Config.pageBytes - c.fill

/-- R5: page 63 has closed. -/
def Cursor.full (c : Cursor) : Bool := decide (Config.pagesPerSegment ≤ c.page)

/-- The write cursor of a segment moved by a placement (R5). -/
def Bank.placeWrite (b : Bank) (g : SegNo) (n : Nat) (close : Bool) : Bank :=
  b.modSeg g (fun e => { e with cursor := e.cursor.map (fun c => c.place n close) })

/-! ### Fetch requests (R6) -/

/-- A request enters the tail of its bank's fetch queue, and the named segment's reference count rises. -/
def State.submitFetch (s : State) (k : BankNo) (q : FetchReq) : State :=
  s.modBank k (fun b =>
    { (b.modSeg q.seg (fun e => { e with refs := e.refs + 1 })) with fetchQ := b.fetchQ ++ [q] })

/-! ### The move of a bank -/

/-- The track a bank is moving (R15: at most one). -/
def State.movingTrack? (s : State) (k : BankNo) : Option Track :=
  s.tracks.find? (fun t => decide (t.state = .moving) && decide (t.bank = k))

def segOf? (segs : List SegElem) (ord : Nat) : Option SegNo := (segs.find? (fun e => decide (e.ord = ord))).map (·.seg)

/-- The move step ready in a bank, if any (R15): a move is in progress and the target for its next page is held.
No step is in the bank when this is asked, and an ended step that did not give DONE has ended the move. -/
def State.readyMove? (s : State) (k : BankNo) : Option Op :=
  match s.movingTrack? k with
  | none => none
  | some t => match t.move with
    | none => none
    | some m => match segOf? t.segs m.next.ord, segOf? m.targets m.next.ord with
      | some src, some tgt => some (.moveStep t.id src tgt m.next)
      | _, _ => none

/-! ### The mount's next read -/

/-- The read the mount issues next in a bank (R10, R47 to R49). -/
def MountProgress.nextOp? (m : MountProgress) : Option Op :=
  match m.phase with
  | .scan seg => some (.tagRead seg 0 0)
  | .contest (c :: _) page _ _ _ => some (.pageRead c.seg page)
  | .contest [] _ _ _ _ => none
  | .judge g lo hi _ _ =>
    match g.members.getLast? with
    | none => none
    | some top => if hi ≤ lo + 1 then some (.pageRead top.seg lo) else some (.tagRead top.seg ((lo + hi) / 2) 0)
  | .finished _ => none

/-! ### The bank arbiter (R13) -/

/-- The work sources in order from the rotation pointer. -/
def Rotation.order : Rotation → List Rotation
  | .load => [.load, .move, .clear]
  | .move => [.move, .clear, .load]
  | .clear => [.clear, .load, .move]

/-- The source after one. -/
def Rotation.after : Rotation → Rotation
  | .load => .move
  | .move => .clear
  | .clear => .load

/-- The operation a work source has ready, if any (R13's second table). -/
def State.workOf? (s : State) (k : BankNo) : Rotation → Option Op
  | .load => (s.banks[k]).loadBuf.map .pageWrite
  | .move => s.readyMove? k
  | .clear => (s.banks[k]).clearQ.head?.map .clear

/-- The first ready source from the rotation pointer, with its operation. -/
def State.readyWork? (s : State) (k : BankNo) : Option (Rotation × Op) :=
  (s.banks[k]).rotation.order.findSome? (fun w => (s.workOf? k w).map (fun op => (w, op)))

/-- The grant of the oldest waiting fetch (R13). -/
def State.grantFetch (s : State) (k : BankNo) (q : FetchReq) (runCount : Nat) : State :=
  s.modBank k (fun b => { b with op := some (.fetch q), runCount := runCount })

/-- The grant of a work source: the run count becomes 0 and the pointer moves on (R13). The load buffer's
contents pass into the page write and the buffer becomes empty (R14). -/
def State.grantWork (s : State) (k : BankNo) (w : Rotation) (op : Op) : State :=
  s.modBank k (fun b =>
    { b with
      op := some op
      runCount := 0
      rotation := w.after
      loadBuf := if w = .load then none else b.loadBuf })

/-- The arbiter's decision (R13). It grants nothing while an operation is in the bank or after SOFT_RESET (R23),
and mount work alone while the bank is mounting. In an idle bank every queued fetch is waiting. -/
def State.arbitrate (s : State) (k : BankNo) : State :=
  let b := s.banks[k]
  if b.op.isSome ∨ b.halted then s
  else match b.mount with
    | some m => s.modBank k (fun b => { b with op := m.nextOp? })
    | none =>
      match b.fetchQ, s.readyWork? k with
      | q :: _, none => s.grantFetch k q 0
      | q :: _, some (w, op) => if b.runCount < 8 then s.grantFetch k q (b.runCount + 1) else s.grantWork k w op
      | [], some (w, op) => s.grantWork k w op
      | [], none => s

/-- Both banks' arbiters, after an event that may have brought either a claim. -/
def State.arbitrateBoth (s : State) : State := (s.arbitrate 0).arbitrate 1

/-! ### SOFT_RESET and the banks (R23, R177) -/

/-- In the event both banks are quiescent, the DONE of the SOFT_RESET that waits joins the outbound queue. -/
def State.quiesce (s : State) : State :=
  if s.link.resetting ∧ (s.banks[0]).op = none ∧ (s.banks[1]).op = none then s.doneDeferred 0x02 0 []
  else s

/-- A completion after SOFT_RESET was taken: the outcome is discarded, the bank holds no operation (R23). -/
def State.discardOutcome (s : State) (k : BankNo) : State :=
  (s.modBank k (fun b => { b with op := none })).quiesce

end Sys2Proof.Machine
end

