-- ==== Sys2Proof/Machine/Playout.lean ====
section
/-! DEFINITION. One binding's pipeline (chapter 4): its requests, its pages, check failures and unloading; its feed
queues (chapter 5); and how a binding's work reaches the part. The work of a binding is a function of the binding
and of what it may read (`PCtx`); it gives the binding, the room's live-text ring, the fetch requests made and the
events raised, in order. -/

namespace Sys2Proof.Machine

open Sys2Proof

/-- What the directory tells a binding of its track, at the moment it asks (R81, R117). -/
structure TrackView where
  kind    : TrackKind
  segs    : List SegElem
  last    : TrackPage
  longest : Nat
deriving DecidableEq, Repr

/-- What a binding's work may read: its place, its room's clock, and its track. -/
structure PCtx where
  room     : RoomNo
  ix       : BindNo
  show_    : ShowState
  pos      : Nat
  rate     : Nat
  carousel : Nat
  track    : Option TrackView
deriving DecidableEq, Repr

/-- A binding's work in progress. -/
structure PWork where
  b    : Binding
  ring : List LiveEntry
  reqs : List FetchReq
  evs  : List RoomClass
deriving DecidableEq, Repr

def PWork.mod (w : PWork) (f : Binding → Binding) : PWork := { w with b := f w.b }
def PWork.raise (w : PWork) (c : RoomClass) : PWork := { w with evs := w.evs ++ [c] }

/-- The page after a page in reading order (R81). -/
def TrackPage.next (p : TrackPage) : TrackPage := if p.pg < 63 then ⟨p.ord, p.pg + 1⟩ else ⟨p.ord + 1, 0⟩

/-- The page is the track's last page (R81). -/
def PCtx.isLast (ctx : PCtx) (p : TrackPage) : Bool :=
  match ctx.track with
  | none => true
  | some t => decide (p = t.last)

/-! ### Requests (R81, R82) -/

/-- The binding's REQUESTED page is issued: its segment is looked up now, and the request is recorded as the issued
fetch without the stale mark (R81). -/
def issue (ctx : PCtx) (w : PWork) : PWork :=
  match w.b.fetch, ctx.track with
  | .requested page base retry _, some t =>
    match segOf? t.segs page.ord with
    | none => w
    | some seg =>
      { w with
        b := { w.b with
          issued := some ⟨seg, page, w.b.gen, false⟩
          fetch := .requested page base retry false }
        reqs := w.reqs ++ [⟨ctx.room, ctx.ix, w.b.gen, seg, page.pg⟩] }
  | _, _ => w

/-- The issued fetch, if present, marked stale (R74). -/
def Binding.markStale (b : Binding) : Binding := { b with issued := b.issued.map (fun i => { i with stale := true }) }

/-- A request for a page (R82): unchanged when that page is already REQUESTED; otherwise it replaces what the fetch
buffer held and is issued at once, or HELD behind an issued fetch, which is then stale. -/
def requestPage (ctx : PCtx) (page : TrackPage) (base : Nat) (w : PWork) : PWork :=
  let fresh : PWork :=
    match w.b.issued with
    | none => issue ctx (w.mod (fun b => { b with fetch := .requested page base false false }))
    | some _ => w.mod (fun b => { b.markStale with fetch := .requested page base false true })
  match w.b.fetch with
  | .requested page' _ _ _ => if page' = page then w else fresh
  | _ => fresh

/-! ### The serve page (R84) -/

/-- The serve buffer is consumed or empty. -/
def Binding.consumed (b : Binding) : Bool :=
  match b.serve with
  | none => true
  | some sp => decide (sp.fill ≤ sp.off)

/-- The fetch buffer is FILLED. -/
def Binding.pageInHand (b : Binding) : Bool :=
  match b.fetch with
  | .filled .. => true
  | _ => false

/-- R84: when the serve buffer is consumed and the fetch buffer FILLED, the fetched page becomes the serve page and
the next page is requested, unless the new serve page is the track's last. -/
def advance (ctx : PCtx) (w : PWork) : PWork :=
  match w.b.fetch with
  | .filled page base fill data =>
    if w.b.consumed then
      let w1 := w.mod (fun b => { b with serve := some ⟨page, base, 0, fill, data⟩, fetch := .empty })
      if ctx.isLast page then w1 else requestPage ctx page.next (base + fill) w1
    else w
  | _ => w

/-- The page after the serve page is requested when the fetch buffer is EMPTY and the serve page is not the last
(R122 step 5; R84 keeps a page ahead). -/
def keepAhead (ctx : PCtx) (w : PWork) : PWork :=
  match w.b.serve, w.b.fetch with
  | some sp, .empty => if ctx.isLast sp.page then w else requestPage ctx sp.page.next (sp.base + sp.fill) w
  | _, _ => w

/-- Bytes of the serve page taken. -/
def PWork.consume (w : PWork) (n : Nat) : PWork :=
  w.mod (fun b => { b with serve := b.serve.map (fun sp => { sp with off := sp.off + n }) })

/-- Bytes in the serve and fetch buffers not yet read: a bound for the reading loops. -/
def Binding.bytesInHand (b : Binding) : Nat :=
  (match b.serve with | none => 0 | some sp => sp.fill - sp.off) +
    (match b.fetch with | .filled _ _ fill _ => fill | _ => 0)

/-! ### Items (R26, R86) -/

inductive Item where
  | pad
  | header (h : Header)
  | endRec
  | bad
deriving DecidableEq, Repr

/-- The item at a cue boundary of a page, at its read offset. Malformed (R86): a kind byte that is not the track's,
00h or an END record in its place (the last 12 bytes of the track's last page); a header out of range or not wholly
in the page; a pad with data after it in the page (R27; log 16). -/
def itemAt (ctx : PCtx) (sp : ServePage) : Item :=
  match sp.data.drop sp.off, ctx.track with
  | b :: rest, some t =>
    if b = 0 then (if rest.isEmpty then .pad else .bad)
    else if b = endKind then (if sp.page = t.last ∧ sp.off + headerBytes = sp.fill then .endRec else .bad)
    else match readHeader t.kind (b :: rest) with
      | some h => .header h
      | none => .bad
  | _, _ => .bad

/-! ### FAULTED (R86, R87) -/

/-- Entry to FAULTED, with PAGE_CHECK raised: the window and the feed queues keep what they hold, and a voice binding
sends FILL from this round on (R87, R142). -/
def enterFault (w : PWork) : PWork :=
  (w.mod (fun b =>
    { b.markStale with
      state := .faulted
      fetch := .empty
      serve := none
      loaded := false
      endTaken := false
      part := none
      skipTo := none
      locate := .none
      staging := []
      clip := none
      nextClip := .none
      scan := none
      block := none })).raise .pageCheck

/-! ### Feed queues (R98 to R103) -/

/-- R98: none of its fragments sent. -/
def FeedMsg.unsent (m : FeedMsg) : Bool := decide (m.sent = 0)

/-- The serial of a SHOW. -/
def FeedMsg.showSerial? (m : FeedMsg) : Option Nat :=
  match m.body with
  | .show_ serial _ _ => some serial
  | _ => none

/-- A wholly unsent SHOW. -/
def FeedMsg.unsentShow (m : FeedMsg) : Bool := m.unsent && m.showSerial?.isSome

/-- A wholly unsent SHOW of a serial. -/
def FeedMsg.unsentShowOf (serial : Nat) (m : FeedMsg) : Bool := m.unsent && decide (m.showSerial? = some serial)

/-- The first element that meets the test removed. -/
def removeFirst {α : Type} (p : α → Bool) : List α → List α
  | [] => []
  | x :: xs => if p x then xs else x :: removeFirst p xs

/-- The rounds since sent of the window cue with a serial made absent (R92, R99). -/
def ageless (serial : Nat) (window : List WinCue) : List WinCue :=
  window.map (fun c => if c.serial = serial then { c with age := none } else c)

/-- R100: the feed collapsed. -/
def collapseFeed (w : PWork) : PWork :=
  (w.mod (fun b =>
    { b with
      prompt := b.prompt.filter (fun m => !m.unsent) ++ [⟨.wipe, 0⟩]
      rept := b.rept.filter (fun m => !m.unsent)
      window := b.window.map (fun c => { c with age := none }) })).raise .feedOverflow

/-- The oldest wholly unsent SHOW of the prompt queue dropped for a message appended: FEED_OVERFLOW (R99). -/
def dropOldestShow (w : PWork) (old : FeedMsg) (new : FeedMsg) : PWork :=
  (w.mod (fun b =>
    { b with
      prompt := removeFirst FeedMsg.unsentShow b.prompt ++ [new]
      window := ageless (old.showSerial?.getD 0) b.window })).raise .feedOverflow

/-- R99: a CLEAR is queued in the prompt queue. -/
def queueClear (serial : Nat) (notify : Bool) (w : PWork) : PWork :=
  let m : FeedMsg := ⟨.clear serial notify, 0⟩
  if w.b.prompt.length < Config.promptPlaces then w.mod (fun b => { b with prompt := b.prompt ++ [m] })
  else if w.b.prompt.any (FeedMsg.unsentShowOf serial) then
    w.mod (fun b =>
      { b with
        prompt := removeFirst (FeedMsg.unsentShowOf serial) b.prompt
        window := ageless serial b.window })
  else match w.b.prompt.find? FeedMsg.unsentShow with
    | some old => dropOldestShow w old m
    | none => collapseFeed w

/-- R99: a SHOW is queued in the prompt queue. -/
def queueShow (serial : Nat) (style : Byte) (text : List Byte) (w : PWork) : PWork :=
  let m : FeedMsg := ⟨.show_ serial style text, 0⟩
  if w.b.prompt.length < Config.promptPlaces then w.mod (fun b => { b with prompt := b.prompt ++ [m] })
  else match w.b.prompt.find? FeedMsg.unsentShow with
    | some old => dropOldestShow w old m
    | none => (w.mod (fun b => { b with window := ageless serial b.window })).raise .feedOverflow

/-- A cue leaves the window (R101): each wholly unsent repeat SHOW of it is removed, then its CLEAR is queued. -/
def leaveWindow (c : WinCue) (notify : Bool) (w : PWork) : PWork :=
  queueClear c.serial notify
    (w.mod (fun b =>
      { b with
        window := removeFirst (fun x => decide (x = c)) b.window
        rept := b.rept.filter (fun m => !m.unsentShowOf c.serial) }))

/-- Cues leave one by one, the first that the test names in the window as it then stands, each with the notify mark the
test gives it (R95, R107). `n` bounds the cues. -/
def leaveEach (test : WinCue → Option Bool) : Nat → PWork → PWork
  | 0, w => w
  | n + 1, w =>
    match w.b.window.findSome? (fun c => (test c).map (fun notify => (c, notify))) with
    | none => w
    | some (c, notify) => leaveEach test n (leaveWindow c notify w)

/-- Every cue of the window that the test names leaves. -/
def leaveAll (test : WinCue → Option Bool) (w : PWork) : PWork := leaveEach test w.b.window.length w

/-! ### Generations, repositions, unloading -/

/-- R74: the generation steps; the issued fetch is stale, the fetch buffer and the feed queues are emptied. -/
def Binding.stepGen (b : Binding) : Binding :=
  { b.markStale with gen := b.gen + 1, fetch := .empty, prompt := [], rept := [] }

/-- The serve buffer, read point, parser, lists, clips and scan record emptied (R77 step 2, R114 steps 2 and 3). -/
def Binding.emptied (b : Binding) : Binding :=
  { b with
    serve := none
    loaded := false
    endTaken := false
    part := none
    nextSerial := 1
    skipTo := none
    locate := .none
    staging := []
    window := []
    clip := none
    nextClip := .none
    scan := none
    block := none }

/-- A bound binding is in a state other than UNBOUND and UNBINDING (R73). -/
def Binding.bound (b : Binding) : Bool := !(decide (b.state = .unbound) || decide (b.state = .unbinding))

/-- The binding becomes UNBOUND: it names no track, and its kind and language are gone (R73, R135). Its bank field, which
names nothing then, keeps its value (log 5). -/
def Binding.toUnbound (b : Binding) : Binding := { b with state := .unbound, track := .none, kind := none, lang := none }

/-- R117: the start segment for seek position S: the last segment whose entry frame is at or below S less the
longest span, or ordinal 0. -/
def startSegment (t : TrackView) (seekPos : Nat) : SegElem :=
  let threshold := seekPos - t.longest
  match (t.segs.filter (fun e => decide (e.entry ≤ threshold))).getLast? with
  | some e => e
  | none => (t.segs.find? (fun e => decide (e.ord = 0))).getD ⟨0, 0, 0⟩

/-- R114 and R115: a bound binding is repositioned to seek position S. -/
def reposition (seekPos : Nat) (ctx : PCtx) (w : PWork) : PWork :=
  let w1 := w.mod (fun b => b.stepGen.emptied)
  let wiped := w1.mod (fun b => { b with prompt := [⟨.wipe, 0⟩] })
  let scanning (w : PWork) : PWork :=
    match ctx.track with
    | none => w.mod (fun b => { b with state := .priming })
    | some t =>
      let e := startSegment t seekPos
      requestPage ctx ⟨e.ord, 0⟩ 0
        (w.mod (fun b =>
          { b with state := .priming, scan := some ⟨seekPos, .opening, e.ord, e.entry, [], none⟩ }))
  match w.b.kind with
  | some .live => (wiped.mod (fun b => { b with state := .playing, loaded := true })).raise .landed
  | some .text => scanning wiped
  | some .voice => scanning w1
  | none => w1

/-- R114: an UNBOUND or UNBINDING binding is not repositioned. -/
def repositionBound (seekPos : Nat) (ctx : PCtx) (w : PWork) : PWork :=
  if w.b.bound then reposition seekPos ctx w else w

/-- R79: a binding in PRIMING, PLAYING or STARVED becomes PLAYING, idle; its window and feeds are left to R104. -/
def Binding.unload (b : Binding) : Binding :=
  { b.markStale with
    state := .playing
    fetch := .empty
    serve := none
    loaded := false
    endTaken := false
    part := none
    skipTo := none
    locate := .none
    staging := []
    clip := none
    nextClip := .none
    scan := none }

/-- R79 by state: FINISHED loses its serve buffer and stays, FAULTED and UNBINDING stay. -/
def Binding.unloadByState (b : Binding) : Binding :=
  match b.state with
  | .priming | .playing | .starved => b.unload
  | .finished => { b with serve := none, loaded := false }
  | .unbound | .faulted | .unbinding => b

/-- A text or LIVE binding. -/
def Binding.captions (b : Binding) : Bool := decide (b.kind = some .text) || decide (b.kind = some .live)

/-- Entry of the room to ENDED (R79, R104): unloaded; a text or LIVE binding that is bound has its feeds and window
emptied and one WIPE queued. -/
def Binding.enterEnded (b : Binding) : Binding :=
  let b1 := b.unloadByState
  if b.bound && b.captions then { b1 with prompt := [⟨.wipe, 0⟩], rept := [], window := [] } else b1

/-- Entry of the room to DARK by ROOM_DARK (R79, R78): as ENDED, with the feeds, windows and buffers of every bound
binding emptied and nothing sent; an UNBINDING binding becomes UNBOUND and its WIPE is dropped. -/
def Binding.enterDark (b : Binding) : Binding :=
  if b.bound then
    let b1 := b.unloadByState
    { b1.markStale with
      fetch := .empty, serve := none, prompt := [], rept := [], window := [], clip := none, nextClip := .none }
  else if b.state = .unbinding then { b with prompt := [], rept := [] }.toUnbound
  else b

/-- ROOM_RESET (R78): every binding not already UNBOUND steps its generation, is emptied and becomes UNBOUND. -/
def Binding.roomReset (b : Binding) : Binding := if b.state = .unbound then b else b.stepGen.emptied.toUnbound

/-- UNBIND (R77), for a binding that takes it, in a room that is DARK or not. -/
def Binding.unbind (b : Binding) (dark : Bool) : Binding :=
  let b1 := b.stepGen.emptied
  let b2 := match b1.track with
    | .stored _ => { b1 with track := .none }
    | _ => b1
  if b.captions && !dark then { b2 with state := .unbinding, prompt := [⟨.wipe, 0⟩] } else b2.toUnbound

/-! ### A binding's work and the part -/

/-- What the directory tells of a binding's track. -/
def State.trackView (s : State) (b : Binding) : Option TrackView :=
  match b.track with
  | .stored id => match s.track? id with
    | some t => match t.summary with
      | some sm => some ⟨t.kind, t.segs, sm.endPage, sm.longest⟩
      | none => none
    | none => none
  | _ => none

/-- What a binding's work may read, as it stands. -/
def State.pctx (s : State) (r : RoomNo) (i : BindNo) : PCtx :=
  let c := s.clock r
  ⟨r, i, c.show_, c.pos, c.rate, c.carousel, s.trackView (s.binding r i)⟩

/-- A binding's work done: the binding and the ring are put back, its requests enter its bank's fetch queue (R6) and
its events are raised. -/
def State.runBinding (s : State) (r : RoomNo) (i : BindNo) (f : PCtx → PWork → PWork) : State :=
  let w := f (s.pctx r i) ⟨s.binding r i, s.rooms[r].ring, [], []⟩
  let s1 := s.modRoom r (fun room => { room with bindings := room.bindings.set i w.b, ring := w.ring })
  let s2 := w.reqs.foldl (fun s q => s.submitFetch w.b.bank q) s1
  w.evs.foldl (fun s c => s.raiseRoom r c) s2

/-- The same work for the four bindings of a room, in number order (log 19). -/
def State.runBindings (s : State) (r : RoomNo) (f : PCtx → PWork → PWork) : State :=
  allBindings.foldl (fun s i => s.runBinding r i f) s

/-- A change of every binding of a room that makes no request and raises nothing. -/
def State.mapBindings (s : State) (r : RoomNo) (f : Binding → Binding) : State :=
  s.modRoom r (fun room => { room with bindings := room.bindings.map f })

end Sys2Proof.Machine
end

