-- ==== Sys2Proof/Machine/Captions.lean ====
section
/-! DEFINITION. Caption and live bindings (chapter 5): staging, activation at a round boundary, the carousel, and the
fragments of their messages. -/

namespace Sys2Proof.Machine

open Sys2Proof

/-! ### Staging (R92, R93) -/

/-- R92: a cue joins a list ordered by start frame, after those of the same start. -/
def insertCue (c : Cue) : List Cue → List Cue
  | [] => [c]
  | d :: ds => if c.start < d.start then c :: d :: ds else d :: insertCue c ds

/-- R92: serials count up to 65535 and then wrap to 1. -/
def serialAfter (n : Nat) : Nat := if n = 65535 then 1 else n + 1

/-- The bytes of the serve page from its read offset, `n` of them at most. -/
def ServePage.peek (sp : ServePage) (n : Nat) : List Byte := (sp.data.drop sp.off).take (min n (sp.fill - sp.off))

/-- A cue header consumed: each takes the next serial, of a text cue or of a voice clip (R92, R119). -/
def numberHeader (w : PWork) : PWork :=
  (w.consume headerBytes).mod (fun b => { b with nextSerial := serialAfter b.nextSerial })

/-- A text header taken: it becomes the item in progress with the next serial (R93, R119). -/
def takeHeader (h : Header) (w : PWork) : PWork :=
  (numberHeader w).mod (fun b => { b with part := some ⟨w.b.nextSerial, h.start, h.stop, h.style, h.len, []⟩ })

/-- The text of the item in progress, as far as the serve page holds it: the binding after it, and the cue when its
last text byte has been read (R93). -/
def takeText (sp : ServePage) (pc : PartCue) (w : PWork) : PWork × Option Cue :=
  let bytes := sp.peek (pc.textLen - pc.got.length)
  let got := pc.got ++ bytes
  let w1 := w.consume bytes.length
  if got.length < pc.textLen then (w1.mod (fun b => { b with part := some { pc with got := got } }), none)
  else (w1.mod (fun b => { b with part := none }), some ⟨pc.serial, pc.start, pc.stop, pc.style, got⟩)

/-- A whole cue staged. -/
def stage (c : Cue) (w : PWork) : PWork := w.mod (fun b => { b with staging := insertCue c b.staging })

/-- R93's parse: until the staging list holds 8 cues, the END record is taken, the pages in hand are spent, or the
content is malformed. `n` bounds the items and page moves. -/
def refillN : Nat → PCtx → PWork → PWork
  | 0, _, w => w
  | n + 1, ctx, w =>
    if Config.stagingPlaces ≤ w.b.staging.length ∨ w.b.endTaken then w
    else match w.b.serve with
      | none => if w.b.pageInHand then refillN n ctx (advance ctx w) else w
      | some sp =>
        if sp.fill ≤ sp.off then (if w.b.pageInHand then refillN n ctx (advance ctx w) else w)
        else match w.b.part with
          | some pc => match takeText sp pc w with
            | (w1, some c) => refillN n ctx (stage c w1)
            | (w1, none) => refillN n ctx w1
          | none => match itemAt ctx sp with
            | .pad => refillN n ctx (w.consume 1)
            | .header h => refillN n ctx (takeHeader h w)
            | .endRec => (w.consume headerBytes).mod (fun b => { b with endTaken := true })
            | .bad => enterFault w

/-- The refill of the staging list (R93), with the page move of R84 where it ends on a page's last byte. Every round
of the parse takes a byte or moves a page, so the bound is never met. -/
def refill (ctx : PCtx) (w : PWork) : PWork := advance ctx (refillN (w.b.bytesInHand + 4) ctx w)

/-! ### Removal and entry (R95, R96) -/

/-- The end frame of a window cue reached. A live cue has none. -/
def WinCue.over (pos : Nat) (c : WinCue) : Bool :=
  match c.time with
  | .frames _ stop => decide (stop ≤ pos)
  | .live _ _ => false

def WinCue.start (c : WinCue) : Nat :=
  match c.time with
  | .frames start _ => start
  | .live _ _ => 0

/-- R95: every cue whose end frame is at or below the sampled position leaves, in window order. -/
def removal (ctx : PCtx) (w : PWork) : PWork := leaveAll (fun c => if c.over ctx.pos then some false else none) w

/-- The first window cue with the earliest start frame (R96 step 2). -/
def earliest : List WinCue → Option WinCue
  | [] => none
  | c :: cs => match earliest cs with
    | none => some c
    | some d => if d.start < c.start then some d else some c

/-- A window cue joins in start order, after those of the same start (R92). -/
def insertWin (c : WinCue) : List WinCue → List WinCue
  | [] => [c]
  | d :: ds => if c.start < d.start then c :: d :: ds else d :: insertWin c ds

/-- R96 step 2: a full window gives up its earliest cue. -/
def evict (w : PWork) : PWork :=
  if Config.windowPlaces ≤ w.b.window.length then
    match earliest w.b.window with
    | none => w
    | some c => leaveWindow c false w
  else w

/-- One head of the staging list, whose start has been reached, skipped or entered (R96). -/
def enterHead (c : Cue) (ctx : PCtx) (w : PWork) : PWork :=
  let w1 := w.mod (fun b => { b with staging := b.staging.drop 1 })
  if c.stop ≤ ctx.pos then w1
  else
    queueShow c.serial c.style c.text
      ((evict w1).mod (fun b =>
        { b with window := insertWin ⟨c.serial, .frames c.start c.stop, c.style, c.text, none⟩ b.window }))

/-- The head of the staging list has reached its start. -/
def headDue (ctx : PCtx) (w : PWork) : Option Cue :=
  match w.b.staging with
  | [] => none
  | c :: _ => if c.start ≤ ctx.pos then some c else none

/-- R96: heads are taken while due; the list is refilled after each, and a refill that brings a due head goes on
(log 18). `n` bounds the heads and refills. -/
def entryN : Nat → PCtx → PWork → PWork
  | 0, _, w => w
  | n + 1, ctx, w =>
    match headDue ctx w with
    | some c => entryN n ctx (refill ctx (enterHead c ctx w))
    | none =>
      let w1 := refill ctx w
      match headDue ctx w1 with
      | some _ => entryN n ctx w1
      | none => w1

/-- The entry step (R96). -/
def entry (ctx : PCtx) (w : PWork) : PWork := entryN (2 * w.b.staging.length + w.b.bytesInHand + 8) ctx w

/-! ### Ages and the carousel (R98, R102) -/

/-- R98: the rounds since sent of every window cue rise by one, saturating at 255; absent values stay absent. -/
def agesRise (w : PWork) : PWork :=
  w.mod (fun b => { b with window := b.window.map (fun c => { c with age := c.age.map (fun a => min 255 (a + 1)) }) })

/-- R102: rounds since sent absent, or at least the carousel interval. -/
def WinCue.due (interval : Nat) (c : WinCue) : Bool :=
  match c.age with
  | none => true
  | some a => decide (interval ≤ a)

/-- One window cue in the carousel step (R102). -/
def repeatCue (interval : Nat) (c : WinCue) (w : PWork) : PWork :=
  if c.due interval && !((w.b.prompt ++ w.b.rept).any (fun m => decide (m.showSerial? = some c.serial))) &&
      decide (w.b.rept.length < Config.repeatPlaces) then
    w.mod (fun b => { b with rept := b.rept ++ [⟨.show_ c.serial c.style c.text, 0⟩] })
  else w

/-- The carousel step (R102), in window order. -/
def carouselStep (ctx : PCtx) (w : PWork) : PWork := w.b.window.foldl (fun w c => repeatCue ctx.carousel c w) w

/-! ### Activation of text and live bindings (R94, R107) -/

/-- A loaded TEXT binding in PLAYING at a round boundary (R94). A binding that its refill makes FAULTED does no more. -/
def activateText (ctx : PCtx) (w : PWork) : PWork :=
  let w1 := removal ctx w
  let w2 := if ctx.show_ = .held then refill ctx w1 else entry ctx w1
  if w2.b.state = .playing then carouselStep ctx (agesRise w2) else w2

/-- A live cue with its remaining hold lowered by one (R107). -/
def WinCue.countDown (c : WinCue) : WinCue :=
  match c.time with
  | .live hold notify => { c with time := .live (hold - 1) notify }
  | .frames _ _ => c

/-- A live cue whose remaining hold has reached 0, with its notify flag. -/
def WinCue.expired? (c : WinCue) : Option Bool :=
  match c.time with
  | .live 0 notify => some notify
  | _ => none

/-- R107 step 1. -/
def liveCountdown (w : PWork) : PWork :=
  leaveAll WinCue.expired? (w.mod (fun b => { b with window := b.window.map WinCue.countDown }))

/-- R107 step 2: at most one ring entry of the binding enters, where the window has room. -/
def liveEntry (ctx : PCtx) (w : PWork) : PWork :=
  if w.b.window.length < Config.windowPlaces then
    match w.ring.find? (fun e => decide (e.binding = ctx.ix)) with
    | none => w
    | some e =>
      queueShow e.serial 0 e.text
        { (w.mod (fun b => { b with window := b.window ++ [⟨e.serial, .live e.hold e.notify, 0, e.text, none⟩] })) with
          ring := removeFirst (fun x => decide (x.binding = ctx.ix)) w.ring }
  else w

/-- A loaded LIVE binding in PLAYING at a round boundary (R107); its ages rise before the carousel step (R98). -/
def activateLive (ctx : PCtx) (w : PWork) : PWork :=
  carouselStep ctx (agesRise (liveEntry ctx (liveCountdown w)))

/-! ### Fragments (R98, R140, R141, R191) -/

/-- The bytes of a message (R191). -/
def MsgBody.bytes : MsgBody → List Byte
  | .show_ serial style text => 1#8 :: (u16 serial ++ [style] ++ u8 text.length ++ text)
  | .clear serial _ => 2#8 :: u16 serial
  | .wipe => [3#8]

/-- The fragments a message takes: the whole number at or above its length over 16 (R98). -/
def MsgBody.fragments (m : MsgBody) : Nat := (m.bytes.length + 15) / 16

/-- Fragment k of a message: 16 bytes, a last fragment filled with FFh (R140, R191). -/
def MsgBody.fragment (m : MsgBody) (k : Nat) : List Byte :=
  let part := (m.bytes.drop (16 * k)).take 16
  part ++ List.replicate (16 - part.length) 0xFF#8

/-- Where a binding's current message stands. -/
inductive FeedSide where
  | prompt | rept
deriving DecidableEq, Repr

/-- A message some but not all of whose fragments are sent is at the head of its queue. -/
def FeedMsg.partlySent (m : FeedMsg) : Bool := decide (0 < m.sent)

/-- R98: the partly sent message, otherwise the head of the prompt queue, otherwise the head of the repeat queue. -/
def currentMessage (b : Binding) : Option (FeedSide × FeedMsg) :=
  match b.prompt, b.rept with
  | p :: _, r :: _ => if r.partlySent && !p.partlySent then some (.rept, r) else some (.prompt, p)
  | p :: _, [] => some (.prompt, p)
  | [], r :: _ => some (.rept, r)
  | [], [] => none

/-- The head of a queue replaced, or taken off it. -/
def onHead (f : FeedMsg → Option FeedMsg) : List FeedMsg → List FeedMsg
  | [] => []
  | m :: ms => match f m with
    | some m' => m' :: ms
    | none => ms

def Binding.onFeedHead (b : Binding) (side : FeedSide) (f : FeedMsg → Option FeedMsg) : Binding :=
  match side with
  | .prompt => { b with prompt := onHead f b.prompt }
  | .rept => { b with rept := onHead f b.rept }

/-- R98: what the last fragment of a message taken into a round does. -/
def lastFragment (m : MsgBody) (w : PWork) : PWork :=
  match m with
  | .show_ serial _ _ =>
    w.mod (fun b => { b with window := b.window.map (fun c => if c.serial = serial then { c with age := some 0 } else c) })
  | .clear _ notify => if notify then w.raise .liveSent else w
  | .wipe => if w.b.state = .unbinding then w.mod Binding.toUnbound else w

/-- R139: the fragment control byte: first mark, last mark, continuation counter. -/
def fragmentControl (first last : Bool) (counter : Nat) : Byte :=
  BitVec.ofNat 8 ((if first then 128 else 0) + (if last then 64 else 0) + counter % 16)

/-- A FILL slot (R139): carrier code 0, both marks, counter 0, sixteen bytes of FFh. -/
def fillSlot : List Byte := [0#8, fragmentControl true true 0] ++ List.replicate 16 0xFF#8

/-- One slot of a text or LIVE binding filled (R140, R141): the binding after it and the slot's 18 bytes. -/
def takeFragment (ix : BindNo) (w : PWork) : PWork × List Byte :=
  match currentMessage w.b with
  | none => (w, fillSlot)
  | some (side, m) =>
    let k := m.sent
    let last : Bool := decide (m.body.fragments ≤ k + 1)
    let bytes := u8 (ix.val + 1) ++ [fragmentControl (decide (k = 0)) last k] ++ m.body.fragment k
    if last then (lastFragment m.body (w.mod (fun b => b.onFeedHead side (fun _ => none))), bytes)
    else (w.mod (fun b => b.onFeedHead side (fun m => some { m with sent := m.sent + 1 })), bytes)

end Sys2Proof.Machine
end

