-- ==== Sys2Proof/Machine/Voice.lean ====
section
/-! DEFINITION. Description bindings (chapter 5, R109 to R113), the reckoning and targeting of blocks (R123 to R125)
and starvation (R88, R89). -/

namespace Sys2Proof.Machine

open Sys2Proof

/-! ### The block-index rule and the read point -/

/-- R110: the whole part of (position - start) × 50 / declared rate. -/
def blockIndex (ctx : PCtx) (start : Nat) : Nat := (ctx.pos - start) * 50 / ctx.rate

/-- The track byte offset of the byte after a clip's last body byte. -/
def Clip.bodyEnd (c : Clip) : Nat := c.bodyOff + 32 * c.blocks

/-- The track byte offset of the first byte of the clip's next block. -/
def Clip.blockOff (c : Clip) : Nat := c.bodyOff + 32 * c.index

/-- The fetch buffer's FILLED page as a page to read from its first byte. -/
def Binding.fetchedPage (b : Binding) : Option ServePage :=
  match b.fetch with
  | .filled page base fill data => some ⟨page, base, 0, fill, data⟩
  | _ => none

/-- A page's range of track byte offsets. -/
def ServePage.holds (sp : ServePage) (x : Nat) : Bool := decide (sp.base ≤ x) && decide (x < sp.base + sp.fill)

/-! ### Landing (R122) -/

/-- R122: the scan stops. Candidates join the staging list, a target clip becomes the current clip, the binding is
PLAYING and loaded, the pages move as R84 gives and a page is kept ahead, and LANDED is raised. -/
def land (ctx : PCtx) (w : PWork) : PWork :=
  let w1 := w.mod (fun b =>
    match b.scan with
    | none => b
    | some sc =>
      { b with
        staging := sc.cands.foldl (fun l c => insertCue c l) b.staging
        clip := sc.target
        scan := none
        locate := .none
        state := .playing
        loaded := true })
  (if w1.b.endTaken then w1 else keepAhead ctx (advance ctx w1)).raise .landed

/-! ### The END record at the end of the track (R125) -/

/-- The END record taken from a page's last 12 data bytes (R125): a PRIMING binding lands with no clip, a STARVED one
becomes PLAYING; anything else there is malformed content. -/
def takeEnd (ctx : PCtx) (sp : ServePage) (w : PWork) : PWork :=
  if headerBytes ≤ sp.fill ∧ (sp.data[sp.fill - headerBytes]?).getD 0 = endKind then
    let w1 := w.mod (fun b =>
      { b with
        serve := some { sp with off := sp.fill }
        fetch := if b.pageInHand then .empty else b.fetch
        endTaken := true
        skipTo := none
        locate := .none
        state := if b.state = .starved then .playing else b.state })
    if w1.b.scan.isSome then land ctx w1 else w1
  else enterFault w

/-- Bytes remain to be passed over up to an offset at or beyond the end of the track's last page, which is the serve
page: the offset was reckoned, and its byte lies beyond the end of the track (R123, R125; log 31). -/
def pastEnd (ctx : PCtx) (sp : ServePage) (b : Binding) : Bool :=
  match b.skipTo with
  | some x => ctx.isLast sp.page && decide (sp.base + sp.fill ≤ x)
  | none => false

/-! ### Reading forward (R109) -/

/-- Bytes passed over up to the offset set (R113, R125): as many as the serve page holds of them. -/
def passBytes (sp : ServePage) (x : Nat) (w : PWork) : PWork :=
  if x ≤ sp.base + sp.off then w.mod (fun b => { b with skipTo := none })
  else w.consume (min (x - (sp.base + sp.off)) (sp.fill - sp.off))

/-- R109 without a current clip: what is to be passed over is passed over, pads are consumed, a VOICE header, which takes
the next serial (R92), becomes the next clip header, the END record sets END taken; reading stops at the edge of the
pages in hand. `n` bounds the items and page moves. -/
def readForwardN : Nat → PCtx → PWork → PWork
  | 0, _, w => w
  | n + 1, ctx, w =>
    if w.b.nextClip ≠ .none ∨ w.b.endTaken ∨ w.b.clip.isSome ∨ w.b.locate ≠ .none then w
    else match w.b.serve with
      | none => if w.b.pageInHand then readForwardN n ctx (advance ctx w) else w
      | some sp =>
        if pastEnd ctx sp w.b then takeEnd ctx sp w
        else if sp.fill ≤ sp.off then (if w.b.pageInHand then readForwardN n ctx (advance ctx w) else w)
        else match w.b.skipTo with
          | some x => readForwardN n ctx (passBytes sp x w)
          | none => match itemAt ctx sp with
            | .pad => readForwardN n ctx (w.consume 1)
            | .header h => (numberHeader w).mod (fun b => { b with nextClip := .header h.start h.stop h.len })
            | .endRec => (w.consume headerBytes).mod (fun b => { b with endTaken := true })
            | .bad => enterFault w

/-- R109, with the page move of R84 where the reading ends on a page's last byte. -/
def readForward (ctx : PCtx) (w : PWork) : PWork := advance ctx (readForwardN (w.b.bytesInHand + 6) ctx w)

/-- What a look-ahead found at a place: the next clip header without consuming it, the end-of-track mark, or
malformed content (R109, R86). -/
def lookAt (item : Item) (w : PWork) : PWork :=
  match item with
  | .header h => w.mod (fun b => { b with nextClip := .header h.start h.stop h.len })
  | .endRec => w.mod (fun b => { b with nextClip := .endMark })
  | .bad => enterFault w
  | .pad => w

/-- R109's look-ahead: the item that follows the current clip's last body byte is examined when it lies in the pages
in hand; a pad there makes it continue at the next page, when that page is in hand. -/
def lookAhead (ctx : PCtx) (w : PWork) : PWork :=
  match w.b.clip, w.b.nextClip, w.b.serve with
  | some c, .none, some sp =>
    let y := c.bodyEnd
    let fetched := w.b.fetchedPage
    let inFetched (x : Nat) : PWork := match fetched with
      | some fp => if fp.holds x then lookAt (itemAt ctx { fp with off := x - fp.base }) w else w
      | none => w
    if sp.holds y then
      match itemAt ctx { sp with off := y - sp.base } with
      | .pad => inFetched (sp.base + sp.fill)
      | item => lookAt item w
    else inFetched y
  | _, _, _ => w

/-! ### Reckoning (R123) -/

/-- Counting forward from a page of known range: each later page counts 2048 bytes, except the page in the fetch
buffer, which keeps the offset it was fetched with and its fill mark. Gives the first page whose range reaches past x,
with its offset; none beyond the track's last page. -/
def reckonN : Nat → PCtx → Option ServePage → Nat → TrackPage → Nat → Nat → Option (TrackPage × Nat)
  | 0, _, _, _, _, _, _ => none
  | n + 1, ctx, fetched, x, page, base, size =>
    if x < base + size then some (page, base)
    else if ctx.isLast page then none
    else match fetched with
      | some fp =>
        if fp.page = page.next then reckonN n ctx fetched x fp.page fp.base fp.fill
        else reckonN n ctx fetched x page.next (base + size) Config.pageBytes
      | none => reckonN n ctx fetched x page.next (base + size) Config.pageBytes

/-- R123: the track page holding a track byte offset, with its known or reckoned offset. -/
def reckon (ctx : PCtx) (b : Binding) (x : Nat) : Option (TrackPage × Nat) :=
  match b.serve with
  | none => none
  | some sp => reckonN ((x - sp.base) / Config.pageBytes + 4) ctx b.fetchedPage x sp.page sp.base sp.fill

/-! ### Targeting a block (R124, R125) -/

/-- The clip being located: a scan's target clip, or the current clip. -/
def Binding.locating (b : Binding) : Option Clip :=
  match b.scan with
  | some sc => sc.target
  | none => b.clip

def Binding.setLocating (b : Binding) (c : Option Clip) : Binding :=
  match b.scan with
  | some sc => { b with scan := some { sc with target := c } }
  | none => { b with clip := c }

/-- The binding waits for a page that holds a block (R124). -/
def Binding.waitBlock (b : Binding) : Binding :=
  match b.scan with
  | some sc => { b with scan := some { sc with phase := .targeting } }
  | none => { b with locate := .block }

/-- The serve page read from a track byte offset it holds. -/
def readFrom (sp : ServePage) (x : Nat) (w : PWork) : PWork :=
  w.mod (fun b => { b with serve := some { sp with off := x - sp.base }, skipTo := none })

/-- R125, when the byte after the clip lies beyond the end of the track: the track's last page is requested, and the END
record is taken from it at its arrival. What is left of the serve page is not read. -/
def seekEnd (ctx : PCtx) (w : PWork) : PWork :=
  match ctx.track with
  | none => w
  | some t => requestPage ctx t.last 0 (w.mod (fun b =>
      { b with locate := .endPage, serve := b.serve.map (fun sp => { sp with off := sp.fill }) }))

/-- R125: a clip found over is passed over without reading its body. The binding continues at the byte after it: on
the serve page, on the fetched page, or on a page that is requested. The caller reads on from there. -/
def passOver (ctx : PCtx) (c : Clip) (w : PWork) : PWork :=
  let cleared := w.mod (fun b =>
    match b.scan with
    | some sc => { b with scan := some { sc with target := none, phase := .reading }, nextClip := .none }
    | none => { b with clip := none, nextClip := .none, locate := .none })
  let playing (w : PWork) : PWork := w.mod (fun b => { b with state := if b.state = .starved then .playing else b.state })
  match w.b.serve, reckon ctx w.b c.bodyEnd with
  | some sp, some (page, base) =>
    if page = sp.page then playing (readFrom sp c.bodyEnd cleared)
    else match w.b.fetchedPage with
      | some fp =>
        if page = fp.page then keepAhead ctx (playing (readFrom fp c.bodyEnd (cleared.mod (fun b => { b with fetch := .empty }))))
        else requestPage ctx page base (playing (cleared.mod (fun b =>
          { b with serve := some { sp with off := sp.fill }, skipTo := some c.bodyEnd })))
      | none => requestPage ctx page base (playing (cleared.mod (fun b =>
          { b with serve := some { sp with off := sp.fill }, skipTo := some c.bodyEnd })))
  | some _, none => seekEnd ctx cleared
  | none, _ => cleared

/-- The block whose first byte is at x is in the pages in hand (R88, R124 step 4): the binding with its read offset
there. -/
def blockInPages? (x : Nat) (w : PWork) : Option PWork :=
  match w.b.serve with
  | none => none
  | some sp =>
    if sp.holds x then
      let here := sp.base + sp.fill - x
      match w.b.fetchedPage with
      | some fp =>
        if 32 ≤ here ∨ (fp.page = sp.page.next ∧ 32 ≤ here + fp.fill) then some (readFrom sp x w) else none
      | none => if 32 ≤ here then some (readFrom sp x w) else none
    else match w.b.fetchedPage with
      | some fp =>
        if fp.holds x ∧ 32 ≤ fp.base + fp.fill - x then
          some (readFrom fp x (w.mod (fun b => { b with fetch := .empty })))
        else none
      | none => none

/-- R124 step 4, in hand: targeting ends. A PRIMING binding lands, a STARVED one becomes PLAYING; the pipeline keeps a
page ahead. -/
def targetEnd (ctx : PCtx) (w : PWork) : PWork :=
  let w1 := w.mod (fun b => { b with locate := .none })
  if w1.b.scan.isSome then land ctx w1
  else keepAhead ctx (w1.mod (fun b => { b with state := if b.state = .starved then .playing else b.state }))

/-- The fetched page becomes the serve page, and the serve page is dropped (R124 step 4). -/
def serveFetched (fp : ServePage) (w : PWork) : PWork := w.mod (fun b => { b with serve := some fp, fetch := .empty })

/-- The block's first byte is in the serve page and its last byte is not in hand: the next page is requested. A FILLED
next page too short for the rest of the block is waited on with nothing requested (log 31). -/
def awaitNext (ctx : PCtx) (sp : ServePage) (w : PWork) : PWork :=
  match w.b.fetchedPage with
  | some fp => if fp.page = sp.page.next then w else requestPage ctx sp.page.next (sp.base + sp.fill) w
  | none => requestPage ctx sp.page.next (sp.base + sp.fill) w

/-- A clip whose block is reckoned to lie beyond the end of the track is given up, and the END record sought (R123, R125). -/
def giveUpClip (ctx : PCtx) (w : PWork) : PWork :=
  seekEnd ctx (w.mod (fun b =>
    match b.scan with
    | some sc => { b with scan := some { sc with target := none, phase := .reading } }
    | none => { b with clip := none, nextClip := .none, locate := .none }))

/-- R124 step 4, not in hand: the page that is wanted is requested; or the fetched page, whose own range holds the
block's first byte, becomes the serve page and the step is repeated by the caller (true). A fetched page that does not
hold it is replaced by the page that the reckoning from the serve page names (log 31). -/
def targetFetch (ctx : PCtx) (c : Clip) (w : PWork) : PWork × Bool :=
  match w.b.serve, w.b.fetchedPage.filter (fun fp => fp.holds c.blockOff) with
  | none, _ => (w, false)
  | some sp, held =>
    match decide (c.blockOff < sp.base + sp.fill), held with
    | false, some fp => (serveFetched fp w, true)
    | _, _ => match reckon ctx w.b c.blockOff, reckon ctx w.b (c.blockOff + 31) with
      | some (first, base), some _ =>
        if first = sp.page then (awaitNext ctx sp ((readFrom sp c.blockOff w).mod Binding.waitBlock), false)
        else (requestPage ctx first base (w.mod Binding.waitBlock), false)
      | _, _ => (giveUpClip ctx w, false)

/-- R124, from step 1, against the room's position in this event. `n` bounds the repetitions of step 4. -/
def targetN : Nat → PCtx → PWork → PWork
  | 0, _, w => w
  | n + 1, ctx, w =>
    match w.b.locating with
    | none => w
    | some c0 =>
      let c : Clip := { c0 with index := max c0.index (blockIndex ctx c0.start) }
      let w1 := w.mod (fun b => b.setLocating (some c))
      if c.blocks ≤ c.index ∨ c.stop + 6 ≤ ctx.pos then passOver ctx c w1
      else match blockInPages? c.blockOff w1 with
        | some w2 => targetEnd ctx w2
        | none => match targetFetch ctx c w1 with
          | (w2, true) => targetN n ctx w2
          | (w2, false) => w2

/-- R124: the fetched page becomes the serve page at most once in an event. -/
def target (ctx : PCtx) (w : PWork) : PWork := targetN 3 ctx w

/-- After targeting, a binding that found its clip over reads on (R125). -/
def targetAndRead (ctx : PCtx) (w : PWork) : PWork := readForward ctx (lookAhead ctx (target ctx w))

/-! ### Starvation (R88, R89) -/

/-- The read point is at the current clip's next block, nothing remains to be passed over, and the block is in hand
(R88). -/
def blockInHand (b : Binding) : Bool :=
  match b.clip, b.serve with
  | some c, some sp =>
    let here := sp.fill - sp.off
    decide (sp.base + sp.off = c.blockOff) && b.skipTo.isNone &&
      (decide (32 ≤ here) ||
        (match b.fetchedPage with
         | some fp => decide (fp.page = sp.page.next) && decide (32 ≤ here + fp.fill)
         | none => false))
  | _, _ => false

/-- R89: recovery at the completion that fills the fetch buffer, the pages having moved as R84 gives. -/
def recover (ctx : PCtx) (w : PWork) : PWork :=
  match w.b.clip with
  | none => w
  | some c0 =>
    let c : Clip := { c0 with index := max c0.index (blockIndex ctx c0.start) }
    let w1 := w.mod (fun b => { b with clip := some c })
    if c.blocks ≤ c.index then readForward ctx (passOver ctx c w1)
    else match blockInPages? c.blockOff w1 with
      | some w2 => lookAhead ctx (targetEnd ctx w2)
      | none => targetAndRead ctx w1

/-! ### The round boundary (R94, R109 to R113) -/

/-- R109 at a boundary: reading forward without a current clip, looking ahead with one. -/
def readClips (ctx : PCtx) (w : PWork) : PWork := if w.b.clip.isSome then lookAhead ctx w else readForward ctx w

/-- R113: the current clip cut: its unsent bytes are passed over, and a STARVED binding becomes PLAYING. -/
def cut (ctx : PCtx) (c : Clip) (w : PWork) : PWork :=
  readForward ctx (w.mod (fun b =>
    { b with
      clip := none
      nextClip := .none
      skipTo := some c.bodyEnd
      locate := .none
      state := if b.state = .starved then .playing else b.state }))

/-- The start frame of the next clip header, when it is at or below the position. -/
def nextDue (ctx : PCtx) (b : Binding) : Bool :=
  match b.nextClip with
  | .header start _ _ => decide (start ≤ ctx.pos)
  | _ => false

/-- R113: the cuts, the next clip tested first. -/
def cuts (ctx : PCtx) (w : PWork) : PWork :=
  match w.b.clip with
  | none => w
  | some c => if nextDue ctx w.b ∨ c.stop + 6 ≤ ctx.pos then cut ctx c w else w

/-- R110: a reached next clip header becomes the current clip with the block the position calls for, or its clip is
skipped and the rule applied to the next header reached. A block beyond the pages in hand is located, and whether the
binding starves in this same event is left to `sendOrStarve` (log 32). The clip that has become current has R109's
look-ahead at this boundary, and after the page move where its block lies in the fetched page. `n` bounds the headers. -/
def clipStartN : Nat → PCtx → PWork → PWork
  | 0, _, w => w
  | n + 1, ctx, w =>
    match w.b.clip, w.b.nextClip, w.b.serve with
    | none, .header start stop blocks, some sp =>
      if start ≤ ctx.pos ∧ w.b.state = .playing then
        let c : Clip := ⟨start, stop, blocks, blockIndex ctx start, sp.base + sp.off⟩
        if blocks ≤ c.index then
          clipStartN n ctx (readForward ctx (w.mod (fun b => { b with nextClip := .none, skipTo := some c.bodyEnd })))
        else
          let w1 := w.mod (fun b => { b with clip := some c, nextClip := .none })
          if c.index = 0 then lookAhead ctx w1
          else match blockInPages? c.blockOff w1 with
            | some w2 => lookAhead ctx (keepAhead ctx w2)
            | none => targetAndRead ctx w1
      else w
    | _, _, _ => w

/-- R110. Every header reached takes at least 12 bytes of the pages in hand. -/
def clipStart (ctx : PCtx) (w : PWork) : PWork := clipStartN (w.b.bytesInHand + 4) ctx w

/-- R111: the block in hand is consumed and becomes the round's voice block; a clip whose blocks are spent ends and
the binding reads forward. -/
def sendBlock (ctx : PCtx) (c : Clip) (sp : ServePage) (w : PWork) : PWork :=
  let first := sp.peek 32
  let w1 := advance ctx (w.consume first.length)
  let rest := match w1.b.serve with
    | some sp' => if first.length < 32 then sp'.peek (32 - first.length) else []
    | none => []
  let w2 := advance ctx ((w1.consume rest.length).mod (fun b =>
    { b with block := some (first ++ rest), clip := some { c with index := c.index + 1 } }))
  if c.blocks ≤ c.index + 1 then readForward ctx (w2.mod (fun b => { b with clip := none, nextClip := .none }))
  else lookAhead ctx w2

/-- R111 and R88 while the room is RUNNING: a voice binding in PLAYING with a current clip sends its block or starves; so
does one whose clip R110 has made current in this event, its block lying beyond the pages in hand (log 32). -/
def sendOrStarve (ctx : PCtx) (w : PWork) : PWork :=
  match w.b.clip, w.b.serve with
  | some c, some sp =>
    if w.b.state = .playing then
      if blockInHand w.b then sendBlock ctx c sp w
      else (w.mod (fun b => { b with state := .starved })).raise .underrun
    else w
  | some _, none =>
    if w.b.state = .playing then (w.mod (fun b => { b with state := .starved })).raise .underrun else w
  | none, _ => w

/-- A loaded VOICE binding in PLAYING or STARVED at a round boundary (R94): R111 and R88 judge the clip that R110 leaves
current at the same boundary (log 32). -/
def activateVoice (ctx : PCtx) (w : PWork) : PWork :=
  let w1 := clipStart ctx (cuts ctx (readClips ctx w))
  if ctx.show_ = .running then sendOrStarve ctx w1 else w1

/-! ### Every binding at a round boundary (R94, R85) -/

/-- R85: PLAYING, END taken, and nothing of the track active, staged or current. -/
def Binding.finishes (b : Binding) : Bool :=
  decide (b.state = .playing) && b.endTaken &&
    (match b.kind with
     | some .text => b.staging.isEmpty && b.window.isEmpty
     | some .voice => b.clip.isNone && decide (b.nextClip = .none)
     | _ => false)

/-- R94's table, in a room that is not DARK: activation by kind and state, then R85. -/
def activate (ctx : PCtx) (w0 : PWork) : PWork :=
  let w := w0.mod (fun b => { b with block := none })
  let inService : Bool := decide (ctx.show_ = .armed) || decide (ctx.show_ = .running) || decide (ctx.show_ = .held)
  let w1 :=
    if inService && w.b.loaded then
      match w.b.kind, w.b.state with
      | some .text, .playing => activateText ctx w
      | some .live, .playing => activateLive ctx w
      | some .voice, .playing | some .voice, .starved => activateVoice ctx w
      | _, _ => w
    else w
  if w1.b.finishes then w1.mod (fun b => { b with state := .finished }) else w1

/-- The two halves of a voice block in the binding's first two slots of a round, FILL in the others (R142).
`nth` counts the binding's slots of this parity before this one. -/
def voiceSlot (ix : BindNo) (b : Binding) (nth : Nat) : List Byte :=
  match b.block with
  | none => fillSlot
  | some block =>
    if nth = 0 then u8 (ix.val + 1) ++ [fragmentControl true false 0] ++ block.take 16
    else if nth = 1 then u8 (ix.val + 1) ++ [fragmentControl false true 1] ++ block.drop 16
    else fillSlot

end Sys2Proof.Machine
end

