-- ==== Sys2Proof/Machine/Reposition.lean ====
section
/-! DEFINITION. The landing scan (chapter 6, R116 to R125) and what a binding does when its fetch completes (R83,
R84, R86, R89). -/

namespace Sys2Proof.Machine

open Sys2Proof

def PWork.modScan (w : PWork) (f : Scan → Scan) : PWork := w.mod (fun b => { b with scan := b.scan.map f })

/-- The END record consumed: END taken, and the binding lands with no stop cue and no clip (R120, R121). -/
def landAtEnd (ctx : PCtx) (w : PWork) : PWork :=
  land ctx ((w.consume headerBytes).mod (fun b => { b with endTaken := true }))

/-! ### TEXT (R120) -/

/-- A whole cue whose start is at or below the seek position: passed over when it was over by then, otherwise a
candidate, the one parsed first giving way to a fifth. -/
def keepCandidate (seekPos : Nat) (c : Cue) (w : PWork) : PWork :=
  if c.stop ≤ seekPos then w
  else w.modScan (fun sc =>
    { sc with cands := (if 4 ≤ sc.cands.length then sc.cands.drop 1 else sc.cands) ++ [c] })

/-- The stop cue's text read as far as the pages in hand give it; a whole stop cue is staged (R120, R122). `n` bounds
the page moves. -/
def stopCueN : Nat → PCtx → PWork → PWork
  | 0, _, w => w
  | n + 1, ctx, w =>
    match w.b.part, w.b.serve with
    | some pc, some sp =>
      if sp.fill ≤ sp.off then (if w.b.pageInHand then stopCueN n ctx (advance ctx w) else w)
      else match takeText sp pc w with
        | (w1, some c) => stage c w1
        | (w1, none) => stopCueN n ctx w1
    | _, _ => w

/-- R119 and R120 from the read offset. A cue that starts above the seek position and ends at or below it, which meets the
first and the third case of R120, is passed over (log 34). `n` bounds the items and page moves. -/
def scanTextN : Nat → PCtx → PWork → PWork
  | 0, _, w => w
  | n + 1, ctx, w =>
    match w.b.scan, w.b.serve with
    | some _, none => if w.b.pageInHand then scanTextN n ctx (advance ctx w) else w
    | some sc, some sp =>
      if sp.fill ≤ sp.off then (if w.b.pageInHand then scanTextN n ctx (advance ctx w) else w)
      else match w.b.part with
        | some pc => match takeText sp pc w with
          | (w1, some c) => scanTextN n ctx (keepCandidate sc.seekPos c w1)
          | (w1, none) => scanTextN n ctx w1
        | none => match itemAt ctx sp with
          | .pad => scanTextN n ctx (w.consume 1)
          | .header h =>
            if sc.seekPos < h.start ∧ sc.seekPos < h.stop then land ctx (stopCueN 4 ctx (takeHeader h w))
            else scanTextN n ctx (takeHeader h w)
          | .endRec => landAtEnd ctx w
          | .bad => enterFault w
    | none, _ => w

/-! ### VOICE (R121) -/

/-- A clip header parsed and numbered (R119), judged at a seek position: passed over page by page, landed before, targeted,
or passed over. The caller goes on where the scan goes on. -/
def judgeClip (seekPos : Nat) (h : Header) (bodyOff : Nat) (ctx : PCtx) (w : PWork) : PWork :=
  let c : Clip := ⟨h.start, h.stop, h.len, blockIndex ctx h.start, bodyOff⟩
  if h.stop ≤ seekPos then w.mod (fun b => { b with skipTo := some c.bodyEnd })
  else if ctx.pos < h.start then
    land ctx (w.mod (fun b => { b with nextClip := .header h.start h.stop h.len }))
  else if ctx.pos < h.stop + 6 ∧ c.index < c.blocks then
    target ctx (w.modScan (fun sc => { sc with phase := .targeting, target := some c }))
  else passOver ctx c w

/-- R119 and R121 from the read offset. `n` bounds the items and page moves. -/
def scanVoiceN : Nat → PCtx → PWork → PWork
  | 0, _, w => w
  | n + 1, ctx, w =>
    match w.b.scan, w.b.serve with
    | some _, none => if w.b.pageInHand then scanVoiceN n ctx (advance ctx w) else w
    | some sc, some sp =>
      if sc.phase ≠ .reading ∨ w.b.locate ≠ .none then w
      else if pastEnd ctx sp w.b then takeEnd ctx sp w
      else if sp.fill ≤ sp.off then (if w.b.pageInHand then scanVoiceN n ctx (advance ctx w) else w)
      else match w.b.skipTo with
        | some x => scanVoiceN n ctx (passBytes sp x w)
        | none => match itemAt ctx sp with
          | .pad => scanVoiceN n ctx (w.consume 1)
          | .header h =>
            scanVoiceN n ctx (judgeClip sc.seekPos h (sp.base + sp.off + headerBytes) ctx (numberHeader w))
          | .endRec => landAtEnd ctx w
          | .bad => enterFault w
    | none, _ => w

/-- The scan of a PRIMING binding goes on with the pages in hand. Every round of a scan takes a byte, ends a passing
over or moves a page, so the bound is never met. -/
def scan (ctx : PCtx) (w : PWork) : PWork :=
  match w.b.kind with
  | some .text => scanTextN (2 * w.b.bytesInHand + 8) ctx w
  | some .voice => scanVoiceN (2 * w.b.bytesInHand + 8) ctx w
  | _ => w

/-! ### The opening test (R118) -/

/-- Page 0 of the trial ordinal opens on a cue. -/
def opensOnCue (kind : TrackKind) (sc : Scan) (fill : Nat) (data : List Byte) : Bool :=
  decide (sc.trialOrd = 0) ||
    (decide (headerBytes ≤ fill) &&
      (match readHeader kind data with
       | some h => decide (h.start < h.stop) && decide (h.start = sc.trialEntry)
       | none => false))

/-- The opening test on the page that has filled the fetch buffer; track byte offsets are counted from the page that
passes it (log 17). -/
def openingTest (sc : Scan) (ctx : PCtx) (w : PWork) : PWork :=
  match w.b.fetch, ctx.track with
  | .filled page _ fill data, some t =>
    if opensOnCue t.kind sc fill data then
      let w1 := (w.mod (fun b => { b with serve := some ⟨page, 0, 0, fill, data⟩, fetch := .empty })).modScan
        (fun sc => { sc with phase := .reading })
      scan ctx (if ctx.isLast page then w1 else requestPage ctx page.next fill w1)
    else
      let back := sc.trialOrd - 1
      let entry := match t.segs.find? (fun e => decide (e.ord = back)) with
        | some e => e.entry
        | none => 0
      requestPage ctx ⟨back, 0⟩ 0
        ((w.mod (fun b => { b with fetch := .empty })).modScan
          (fun sc => { sc with trialOrd := back, trialEntry := entry }))
  | _, _ => w

/-! ### A fetch completes (R83) -/

/-- A wait for the track's last page answered (R125). -/
def endPageArrived (ctx : PCtx) (w : PWork) : PWork :=
  match w.b.fetchedPage with
  | some fp => takeEnd ctx fp w
  | none => w

/-- The fetch buffer of a PRIMING binding has been filled. -/
def scanFill (ctx : PCtx) (w : PWork) : PWork :=
  match w.b.scan with
  | none => w
  | some sc =>
    match sc.phase with
    | .opening => openingTest sc ctx w
    | .reading => if w.b.locate = .endPage then endPageArrived ctx w else scan ctx w
    | .targeting => scan ctx (target ctx w)

/-- The fetch buffer of a loaded VOICE binding has been filled: R84, and R109's resumed reading or R109's look-ahead
at a page move; a STARVED binding recovers (R89, R124, R125). -/
def voiceFill (ctx : PCtx) (w : PWork) : PWork :=
  match w.b.locate with
  | .endPage => endPageArrived ctx w
  | .block => targetAndRead ctx w
  | .none =>
    if w.b.state = .starved then recover ctx (advance ctx w)
    else if w.b.clip.isNone then readForward ctx w
    else if w.b.consumed then lookAhead ctx (advance ctx w)
    else w

/-- The fetch buffer has become FILLED. -/
def onFill (ctx : PCtx) (w : PWork) : PWork :=
  match w.b.state with
  | .priming => scanFill ctx w
  | .playing | .starved =>
    if w.b.loaded then
      match w.b.kind with
      | some .text => advance ctx w
      | some .voice => voiceFill ctx w
      | _ => w
    else w
  | _ => w

/-- A result that answers the ISSUED request: OK fills the buffer (R83), a first CHECK_FAIL is fetched again and a
second makes the binding FAULTED (R86). -/
def takeAnswer (result : Option (Nat × List Byte)) (ctx : PCtx) (w : PWork) : PWork :=
  match w.b.fetch, result with
  | .requested page base _ _, some (fill, data) =>
    onFill ctx (w.mod (fun b => { b with fetch := .filled page base fill data }))
  | .requested page base retry _, none =>
    if retry then enterFault w
    else issue ctx (w.mod (fun b => { b with fetch := .requested page base true false }))
  | _, _ => w

/-- A HELD request is issued (R83 step 4). -/
def issueHeld (ctx : PCtx) (w : PWork) : PWork :=
  match w.b.fetch, w.b.issued with
  | .requested _ _ _ true, none => issue ctx w
  | _, _ => w

/-- R83, for a result that carries generation `gen`: the fill mark and data, or none for CHECK_FAIL. -/
def takeResult (gen : BitVec 8) (result : Option (Nat × List Byte)) (ctx : PCtx) (w : PWork) : PWork :=
  match w.b.issued with
  | none => w
  | some i =>
    let w1 := w.mod (fun b => { b with issued := none })
    issueHeld ctx (if i.stale ∨ gen ≠ w.b.gen then w1 else takeAnswer result ctx w1)

end Sys2Proof.Machine
end

