-- ==== Sys2Proof/Machine/Link.lean ====
section
/-! DEFINITION. The inbound command queue (R171, R172) and the commands the link and the event unit own: IDENT,
SOFT_RESET, NOTICE_SET, EVENTS_READ, EVENTS_CLEAR. The receiver and the transmitter are in Machine/Receiver.lean. -/

namespace Sys2Proof.Machine

open Sys2Proof

/-! ### Events in an unpowered part -/

/-- Nothing happens in a part that has no power, save POWER_ON (R12; log 3). -/
def State.ifPowered (s : State) (f : State → State) : State := if s.powered then f s else s

/-! ### Entry to the inbound queue (R171, R176) -/

/-- An intact frame of a type and tag has completed: it is discarded while a soft reset waits, discarded with
LINK_OVERRUN while eight places are held, and otherwise enters the queue and is dispatched to `own` with its place. -/
def State.takeCommand (s : State) (type : Nat) (tag : Byte) (own : Nat → State → State) : State :=
  if s.link.resetting then s
  else if Config.inboundPlaces ≤ s.link.inbound.length then s.raiseDevice .linkOverrun
  else
    let place := freePlace s.link.inbound
    own place (s.modLink (fun l => l.enter place tag type))

/-- A controller command arrives in the part as it stands. -/
def State.command (s : State) (type : Nat) (tag : Byte) (own : Nat → State → State) : State :=
  s.ifPowered (fun s => s.takeCommand type tag own)

/-! ### IDENT (R179) -/

/-- "CZD-16". -/
def partCode : List Byte := [0x43, 0x5A, 0x44, 0x2D, 0x31, 0x36]

/-- The capacities IDENT reports, in the order of R179's table, up to the largest body. -/
def capacities : List Nat :=
  [2, Config.segmentsPerBank, Config.pagesPerSegment, Config.pageBytes, Config.slotsPerPage] ++
    [Config.directoryEntries, Config.segmentsPerTrack] ++
    [16, 4, Config.stagingPlaces, Config.windowPlaces, Config.promptPlaces, Config.repeatPlaces, Config.ringPlaces] ++
    [40, 726, 32] ++ [512, 48] ++
    [Config.inboundPlaces, Config.outboundMessages, Config.outboundNotices, Config.largestBody]

def State.identBody (s : State) : List Byte :=
  partCode ++ u8 Config.revision ++ capacities.flatMap u16 ++ u32 s.link.rate ++ flagByte (!s.mounting)

def takeIdent (place : Nat) (s : State) : State := s.done place s.identBody

/-! ### SOFT_RESET (R176, R177) -/

/-- SOFT_RESET takes the head of the inbound queue, the other open commands are discarded, and nothing more is
dispatched. -/
def Link.softReset (l : Link) (place : Nat) : Link :=
  { l with
    inbound := l.inbound.filter (fun c => decide (c.place = place)) ++ l.inbound.filter (fun c => c.answered)
    resetting := true }

/-- The store controllers grant no further operation (R23). -/
def State.haltBanks (s : State) : State := { s with banks := s.banks.map (fun b => { b with halted := true }) }

def takeSoftReset (place : Nat) (s : State) : State :=
  ((s.modLink (fun l => l.softReset place)).haltBanks).quiesce

/-! ### NOTICE_SET (R183) -/

/-- R183 step 3: a set latch to be owed now that its class has become effectively enabled. -/
def EventUnit.newlyOwed (before after : EventUnit) (e : EventId) : Bool :=
  let l := after.latch e
  l.set_ && !l.queued && !before.enabled e && after.enabled e && !decide (e ∈ after.owed)

/-- R183 steps 1 to 3. -/
def EventUnit.setNotices (u : EventUnit) (switch : Bool) (mask : BitVec 16) : EventUnit :=
  let u1 := { u with switch := switch, mask := mask }
  let u2 := { u1 with owed := u1.owed.filter u1.enabled }
  { u2 with owed := u2.owed ++ allEvents.filter (u.newlyOwed u2) }

/-- The mask names a class beyond the thirteen. -/
def maskBeyond (mask : BitVec 16) : Bool := !decide (mask &&& 0xE000#16 = 0)

def takeNoticeSet (switch : Nat) (mask : BitVec 16) (place : Nat) (s : State) : State :=
  if 1 < switch ∨ maskBeyond mask then s.refuse place .badArg 0
  else
    let s1 := (s.modEvu (fun u => u.setNotices (decide (switch = 1)) mask)).serveOwed
    s1.done place (flagByte s1.evu.switch ++ u16 s1.evu.mask.toNat ++ u8 s1.evu.owed.length)

/-! ### EVENTS_READ and EVENTS_CLEAR (R184, R185) -/

/-- The latches of a scope code, in the order of the table of chapter 11; none for a code of no scope. -/
def scopeEvents? (scope : Nat) : Option (List EventId) :=
  if h : scope < 16 then some (allRoomClasses.map (EventId.room ⟨scope, h⟩))
  else if scope = 16 then some (allDeviceClasses.map EventId.device)
  else none

/-- One class of an EVENTS_READ reply: set flag, count, owed. -/
def EventUnit.report (u : EventUnit) (e : EventId) : List Byte :=
  flagByte (u.latch e).set_ ++ u8 (u.latch e).count ++ flagByte (decide (e ∈ u.owed))

def takeEventsRead (scope : Nat) (place : Nat) (s : State) : State :=
  match scopeEvents? scope with
  | none => s.refuse place .badArg 0
  | some events =>
    s.done place (events.flatMap s.evu.report ++ flagByte s.evu.switch ++ u16 s.evu.mask.toNat)

/-- One latch of an EVENTS_CLEAR reply: set flag and count as they stood. -/
def EventUnit.cleared (u : EventUnit) (e : EventId) : List Byte :=
  flagByte (u.latch e).set_ ++ u8 (u.latch e).count

/-- The classes a scope does not have are named (R185 step 2). -/
def classesBeyond (scope : Nat) (classes : BitVec 16) : Bool :=
  if scope < 16 then !decide (classes &&& 0xFF00#16 = 0) else !decide (classes &&& 0xE0FF#16 = 0)

def takeEventsClear (scope : Nat) (classes : BitVec 16) (place : Nat) (s : State) : State :=
  match scopeEvents? scope with
  | none => s.refuse place .badArg 0
  | some events =>
    if classesBeyond scope classes then s.refuse place .badArg 0
    else
      let named := events.filter (fun e => classes.getLsbD e.classCode)
      (named.foldl State.clearLatch s).done place (named.flatMap s.evu.cleared)

/-! ### The meanings -/

def execIdent (tag : Byte) (s : State) : Host.Outcome State Fault Refusal :=
  .next (s.command 0x01 tag takeIdent)

def execSoftReset (tag : Byte) (s : State) : Host.Outcome State Fault Refusal :=
  .next (s.command 0x02 tag takeSoftReset)

def execNoticeSet (tag : Byte) (switch : Nat) (mask : BitVec 16) (s : State) : Host.Outcome State Fault Refusal :=
  .next (s.command 0x03 tag (takeNoticeSet switch mask))

def execEventsRead (tag : Byte) (scope : Nat) (s : State) : Host.Outcome State Fault Refusal :=
  .next (s.command 0x04 tag (takeEventsRead scope))

def execEventsClear (tag : Byte) (scope : Nat) (classes : BitVec 16) (s : State) :
    Host.Outcome State Fault Refusal :=
  .next (s.command 0x05 tag (takeEventsClear scope classes))

end Sys2Proof.Machine
end

