-- ==== Sys2Proof/Machine/Parser.lean ====
section
/-! DEFINITION. The parse checks of track content (R27), made by the Loader on each write and by the Mover on each
page. -/

namespace Sys2Proof.Machine

open Sys2Proof

/-- Before the first byte of a track (R24). -/
def ParserState.start : ParserState := ⟨0, 0, 0, 0, 0, 0⟩

/-- What a parse comes to: the state after the data, with whether they end in a pad byte at a cue boundary, or the
first violation with the track byte offset of its item. -/
inductive ParseResult where
  | ok (state : ParserState) (pad : Bool)
  | bad (reason : Reason) (offset : Nat)
deriving DecidableEq, Repr

/-- A header's frames and length are out of range or its end is not above its start (R27, R188). -/
def headerMalformed (kind : TrackKind) (start stop len : Nat) : Bool :=
  decide (Config.maxPosition < start) || decide (Config.maxPosition < stop) || decide (stop ≤ start) ||
    decide (len = 0) || (match kind with | .text => decide (244 < len) | .voice => decide (3000 < len))

/-- The length field of a header: text length or block count (R190). -/
def lengthField (kind : TrackKind) (bytes : List Byte) : Nat :=
  match kind with
  | .text => field bytes 10 2
  | .voice => field bytes 9 3

/-- A header of start, stop and length lies at a cue boundary: the checks of R27 in the order of its table, and the
state that takes the new cue. -/
def ParserState.takeCue (p : ParserState) (kind : TrackKind) (start stop len : Nat) : ParseResult :=
  if headerMalformed kind start stop len ∨ 65535 ≤ p.count then .bad .badCue p.offset
  else if start < p.lastStart ∨ (kind = .voice ∧ start < p.lastEnd) then .bad .order p.offset
  else
    .ok
      { offset := p.offset + headerBytes
        openBytes := match kind with | .text => len | .voice => 32 * len
        lastStart := start
        lastEnd := max p.lastEnd stop
        longest := max p.longest (stop - start)
        count := p.count + 1 } false

/-- R27 over data, item by item. `n` bounds the items. -/
def parseN : Nat → TrackKind → ParserState → List Byte → ParseResult
  | 0, _, p, _ => .ok p false
  | _ + 1, _, p, [] => .ok p false
  | n + 1, kind, p, b :: rest =>
    if 0 < p.openBytes then
      let k := min p.openBytes (rest.length + 1)
      parseN n kind { p with offset := p.offset + k, openBytes := p.openBytes - k } ((b :: rest).drop k)
    else if b = 0 then
      if rest.isEmpty then .ok { p with offset := p.offset + 1 } true else .bad .badCue p.offset
    else if b.toNat ≠ kind.code ∨ rest.length + 1 < headerBytes then .bad .badCue p.offset
    else match p.takeCue kind (field (b :: rest) 1 4) (field (b :: rest) 5 4) (lengthField kind (b :: rest)) with
      | .bad reason offset => .bad reason offset
      | .ok p' _ => parseN n kind p' ((b :: rest).drop headerBytes)

/-- Every item takes a byte, so the bound is never met. -/
def parse (kind : TrackKind) (p : ParserState) (data : List Byte) : ParseResult :=
  parseN (data.length + 1) kind p data

/-- The entry frame of a segment whose first write carries these data (R31). -/
def entryFrame (kind : TrackKind) (p : ParserState) (data : List Byte) : Nat :=
  if p.openBytes = 0 ∧ field data 0 1 = kind.code then field data 1 4 else p.lastStart

end Sys2Proof.Machine
end

