-- ==== Sys2Proof/Machine/Tracks.lean ====
section
/-! DEFINITION. The Loader and the track directory (chapter 2, R24 to R38, R45, R46): creating, writing, sealing,
deleting and reporting tracks, and the completion of a page write (R8). -/

namespace Sys2Proof.Machine

open Sys2Proof

/-! ### TRACK_CREATE (R28) -/

/-- A LOADING entry as it is created. -/
def Track.create (id : Nat) (kind : TrackKind) (lang : Lang) (bank : BankNo) : Track where
  id := id
  kind := kind
  lang := lang
  bank := bank
  state := .loading
  gen := 0
  segs := []
  writePos := some 0
  settled := some 0
  rewind := none
  checkpoint := none
  priorCheckpoint := none
  running := some ParserState.start
  inFlight := 0
  sealPending := false
  sealPage := none
  summary := none
  bindCount := 0
  move := none
  clearing := []

def takeTrackCreate (trackId kind : Nat) (lang : Lang) (bank : Nat) (place : Nat) (s : State) : State :=
  if s.mounting then s.refuse place .mounting 0
  else match TrackKind.ofCode? kind with
    | none => s.refuse place .badArg 0
    | some k =>
      if h : bank < 2 then
        if trackId = 0 ∨ !Lang.valid lang then s.refuse place .badArg 0
        else if (s.track? trackId).isSome then s.refuse place .inUse 0
        else if Config.directoryEntries ≤ s.tracks.length then s.refuse place .noSpace 0
        else (s.addTrack (Track.create trackId k lang ⟨bank, h⟩)).done place []
      else s.refuse place .badArg 0

/-! ### Placement (R29 to R31) -/

/-- The write cursor of the track's last segment. -/
def State.lastCursor? (s : State) (t : Track) : Option Cursor :=
  match t.segs.getLast? with
  | none => none
  | some e => ((s.banks[t.bank]).segs[e.seg]).cursor

/-- The track has no segment, or its last one is full. -/
def State.needsSegment (s : State) (t : Track) : Bool :=
  match s.lastCursor? t with
  | none => true
  | some c => c.full

/-- The room left for the next write (R29 step 5). -/
def State.roomLeft (s : State) (t : Track) : Nat :=
  match s.lastCursor? t with
  | none => Config.pageBytes
  | some c => if c.full then Config.pageBytes else c.room

/-- R29 steps 7 and 8. -/
def State.placeRefusal? (s : State) (t : Track) : Option Reason :=
  let b := s.banks[t.bank]
  if b.loadBuf.isSome then some .busy
  else if !s.needsSegment t then none
  else if Config.segmentsPerTrack ≤ t.segs.length then some .noSpace
  else if !b.free.isEmpty then none
  else if b.clearQ.isEmpty then some .noSpace else some .busy

/-- A page write of a track is in the bank's array. -/
def Bank.writing (b : Bank) (id : Nat) : Bool :=
  match b.op with
  | some (.pageWrite lb) => decide (lb.trackId = id)
  | _ => false

/-- A page write into a segment is in the bank's array. -/
def Bank.writingSeg (b : Bank) (id : Nat) (g : SegNo) : Bool :=
  match b.op with
  | some (.pageWrite lb) => decide (lb.trackId = id) && decide (lb.seg = g)
  | _ => false

/-- R31 step 1: the last segment still has a write in flight. The load buffer is empty when a segment is taken. -/
def State.lastInFlight (s : State) (t : Track) : Bool :=
  match t.segs.getLast? with
  | none => false
  | some e => (s.banks[t.bank]).writingSeg t.id e.seg

/-- R31: the entry with a new segment. -/
def Track.appendSeg (t : Track) (g : SegNo) (lastInFlight : Bool) (data : List Byte) : Track :=
  { t with
    priorCheckpoint := if lastInFlight then t.checkpoint else none
    checkpoint := t.running
    segs := t.segs ++ [⟨t.segs.length, g, entryFrame t.kind (t.running.getD ParserState.start) data⟩] }

/-- R31: the head of the free list is taken for a track, SEGMENTS_LOW being judged (R18, R21). -/
def State.takeSegment (s : State) (t : Track) (data : List Byte) : State :=
  match (s.banks[t.bank]).free with
  | [] => s
  | g :: _ =>
    let s1 := s.modBank t.bank (fun b => b.takeFree g .owned)
    s.judgeLow (s1.modTrack t.id (fun t => t.appendSeg g (s.lastInFlight t) data)) t.bank

/-- The segment tag of an element of a track's list (R3). -/
def Track.segTag (t : Track) (gen : Nat) (ord entry : Nat) : SegTag := ⟨t.id, t.kind.code, t.lang, gen, ord, entry⟩

/-- The load buffer filled with a write of data for the last segment of a track (R5, R14, R30). -/
def State.fillBuffer (s : State) (t : Track) (fresh : Bool) (data : List Byte) (close : Bool) : State :=
  match t.segs.getLast? with
  | none => s
  | some e =>
    let c := (((s.banks[t.bank]).segs[e.seg]).cursor).getD Cursor.fresh
    s.modBank t.bank (fun b =>
      { b.placeWrite e.seg data.length close with
        loadBuf := some
          { trackId := t.id
            seg := e.seg
            page := c.page
            slot := c.writes
            fillBefore := c.fill
            fillAfter := c.fill + data.length
            close := close
            data := data
            landing := t.writePos.getD 0
            segTag := if fresh then some (t.segTag t.gen e.ord e.entry) else none } })

/-- An accepted write of data that take the running parser state to `p` (R30, R35). -/
def State.acceptWrite (s : State) (t : Track) (data : List Byte) (p : ParserState) (close : Bool) : State :=
  let fresh := s.needsSegment t
  let s1 := if fresh then s.takeSegment t data else s
  match s1.track? t.id with
  | none => s1
  | some t1 =>
    (s1.fillBuffer t1 fresh data close).modTrack t.id (fun t =>
      { t with
        running := some p
        writePos := t.writePos.map (· + data.length)
        rewind := none
        inFlight := t.inFlight + 1 })

/-! ### TRACK_WRITE (R29, R30) -/

/-- The reply of an accepted write: landing offset, settled offset, room left. -/
def State.writeReply (s : State) (id landing : Nat) : List Byte :=
  match s.track? id with
  | none => []
  | some t => u32 landing ++ u32 (t.settled.getD 0) ++ u16 (s.roomLeft t)

/-- R29 steps 5 to 8, and R30. -/
def State.writeOrRefuse (s : State) (place : Nat) (t : Track) (expected : Nat) (data : List Byte) : State :=
  if s.roomLeft t < data.length then s.refuse place .badArg (s.roomLeft t)
  else match parse t.kind (t.running.getD ParserState.start) data with
    | .bad reason offset => s.refuse place reason (offset - expected)
    | .ok p pad => match s.placeRefusal? t with
      | some reason => s.refuse place reason 0
      | none =>
        let s1 := s.acceptWrite t data p pad
        (s1.done place (s1.writeReply t.id expected)).arbitrate t.bank

def takeTrackWrite (trackId expected : Nat) (data : List Byte) (place : Nat) (s : State) : State :=
  if data.length = 0 ∨ Config.pageBytes < data.length then s.refuse place .badLength (6 + data.length)
  else if s.mounting then s.refuse place .mounting 0
  else match s.track? trackId with
    | none => s.refuse place .notFound 0
    | some t =>
      if t.state ≠ .loading ∨ t.sealPending then s.refuse place .badState 0
      else if t.writePos ≠ some expected then s.refuse place .rewind (t.writePos.getD 0)
      else s.writeOrRefuse place t expected data

/-! ### TRACK_SEAL (R35) -/

/-- The track page of the write held in the load buffer, in the track's last segment. -/
def State.bufferPage (s : State) (t : Track) : TrackPage :=
  match t.segs.getLast?, (s.banks[t.bank]).loadBuf with
  | some e, some lb => ⟨e.ord, lb.page⟩
  | _, _ => ⟨0, 0⟩

/-- R35 steps 5 to 8, and its acceptance: the reply is deferred. -/
def State.sealOrRefuse (s : State) (place : Nat) (t : Track) : State :=
  let p := t.running.getD ParserState.start
  if 0 < p.openBytes then s.refuse place .badCue 0
  else if s.roomLeft t < headerBytes then s.refuse place .badArg (s.roomLeft t)
  else match s.placeRefusal? t with
    | some reason => s.refuse place reason 0
    | none =>
      let record := endRecord p.count p.lastEnd p.longest t.gen
      let s1 := (s.defer place t.id).acceptWrite t record { p with offset := p.offset + headerBytes } true
      (s1.modTrack t.id (fun t => { t with sealPending := true, sealPage := some (s1.bufferPage t) })).arbitrate t.bank

def takeTrackSeal (trackId expected : Nat) (place : Nat) (s : State) : State :=
  if s.mounting then s.refuse place .mounting 0
  else match s.track? trackId with
    | none => s.refuse place .notFound 0
    | some t =>
      if t.state ≠ .loading ∨ t.sealPending then s.refuse place .badState 0
      else if t.writePos ≠ some expected then s.refuse place .rewind (t.writePos.getD 0)
      else s.sealOrRefuse place t

/-! ### TRACK_DELETE (R37, R38) -/

/-- The entry is removed and the deferred DONE sent. -/
def State.endDelete (s : State) (id : Nat) : State := (s.removeTrack id).doneDeferred 0x34 id []

/-- R37: every segment released in descending ordinal; an entry with none is removed. -/
def State.releaseTrack (s : State) (t : Track) : State :=
  let gs := (t.segs.map (·.seg)).reverse
  if gs.isEmpty then s.endDelete t.id
  else (s.releaseSegs t.bank gs).modTrack t.id (fun t => { t with segs := [], clearing := gs })

/-- R14: a full load buffer of a track is withdrawn without a page write. -/
def Bank.withdraw (b : Bank) (id : Nat) : Bank :=
  match b.loadBuf with
  | some lb => if lb.trackId = id then { b with loadBuf := none } else b
  | none => b

/-- The entry becomes DELETING, without the seal summary of a SEALED one (R24); its writes in flight are those in the
array. -/
def Track.toDeleting (t : Track) (writing : Bool) : Track :=
  { t with
    state := .deleting, rewind := none, checkpoint := none, priorCheckpoint := none, running := none, summary := none
    inFlight := if writing then 1 else 0 }

/-- An accepted TRACK_DELETE. -/
def State.beginDelete (s : State) (t : Track) : State :=
  let writing := (s.banks[t.bank]).writing t.id
  let s1 := (s.modBank t.bank (fun b => b.withdraw t.id)).modTrack t.id (fun t => t.toDeleting writing)
  if writing then s1 else s1.releaseTrack (t.toDeleting false)

def takeTrackDelete (trackId : Nat) (place : Nat) (s : State) : State :=
  if s.mounting then s.refuse place .mounting 0
  else match s.track? trackId with
    | none => s.refuse place .notFound 0
    | some t =>
      if 0 < t.bindCount then s.refuse place .inUse 0
      else if t.state = .moving ∨ t.state = .deleting ∨ t.sealPending then s.refuse place .badState 0
      else ((s.defer place trackId).beginDelete t).arbitrate t.bank

/-! ### TRACK_INFO and STORE_INFO (R45, R46) -/

def SegElem.bytes (e : SegElem) : List Byte := u8 e.ord ++ u16 e.seg.val ++ u24 e.entry

/-- The body of a TRACK_INFO reply; what R45 reports "when" something holds travels as an optional field (log 14). -/
def Track.report (t : Track) : List Byte :=
  u8 t.kind.code ++ Lang.bytes t.lang ++ u8 t.bank.val ++ u8 t.state.code ++ u8 t.gen ++ flagByte t.sealPending ++
    u8 t.bindCount ++ optBytes 4 t.writePos ++ optBytes 4 t.settled ++ optBytes 4 t.rewind ++
    optField 10 (t.summary.map Summary.bytes) ++
    u16 t.segs.length ++ t.segs.flatMap SegElem.bytes ++
    optField 4 (t.move.map (fun m => u16 m.moved ++ u16 m.targets.length)) ++
    optField 2 (if t.state = .deleting then some (u16 t.clearing.length) else none)

def takeTrackInfo (trackId : Nat) (place : Nat) (s : State) : State :=
  if s.mounting then s.refuse place .mounting 0
  else match s.track? trackId with
    | none => s.refuse place .notFound 0
    | some t => s.done place t.report

/-- The segments of a bank's tracks: OWNED ones, and targets of the move in progress (R16). -/
def State.ownedCount (s : State) (k : BankNo) : Nat :=
  ((s.tracks.filter (fun t => decide (t.bank = k))).map (fun t => t.segs.length)).sum

def State.targetCount (s : State) (k : BankNo) : Nat :=
  match s.movingTrack? k with
  | none => 0
  | some t => match t.move with
    | none => 0
    | some m => m.targets.length

/-- One bank of a STORE_INFO reply. -/
def State.bankReport (s : State) (k : BankNo) : List Byte :=
  let b := s.banks[k]
  u16 b.free.length ++ u16 b.clearQ.length ++ u16 b.retired.length ++ u16 (s.ownedCount k) ++
    u16 (s.targetCount k) ++ u16 b.drain.length ++ flagByte b.loadBuf.isSome ++
    optBytes 2 ((s.movingTrack? k).map (·.id))

def State.storeReport (s : State) : List Byte :=
  s.bankReport 0 ++ s.bankReport 1 ++ u8 s.tracks.length ++
    s.tracks.flatMap (fun t => u16 t.id ++ u8 t.state.code)

def takeStoreInfo (place : Nat) (s : State) : State :=
  if s.mounting then s.refuse place .mounting 0 else s.done place s.storeReport

/-! ### A page write completes (R8, R32, R33, R36, R37) -/

/-- R36: with a seal pending and no write left in flight the track becomes SEALED, and DONE is sent. -/
def State.decideSeal (s : State) (id : Nat) : State :=
  match s.track? id with
  | none => s
  | some t =>
    if t.sealPending ∧ t.inFlight = 0 then
      let p := t.running.getD ParserState.start
      let summary : Summary := ⟨p.count, p.lastEnd, p.longest, t.sealPage.getD ⟨0, 0⟩⟩
      (s.modTrack id (fun t =>
        { t with
          state := .sealed, summary := some summary, sealPending := false, sealPage := none
          checkpoint := none, priorCheckpoint := none, running := none })).doneDeferred 0x32 id
        (u32 (t.writePos.getD 0) ++ summary.bytes)
    else s

/-- A write of the track waits in the load buffer for a segment. -/
def Bank.buffered (b : Bank) (id : Nat) (g : SegNo) : Bool :=
  match b.loadBuf with
  | some lb => decide (lb.trackId = id) && decide (lb.seg = g)
  | none => false

/-- The segment before the track's last one. -/
def Track.beforeLast? (t : Track) : Option SegNo := (t.segs.reverse.drop 1).head?.map (·.seg)

/-- R32: the prior checkpoint is kept while the segment before the last has a write in flight. -/
def Track.keepsPrior (t : Track) (b : Bank) : Bool :=
  match t.beforeLast? with
  | none => false
  | some g => b.buffered t.id g

/-- R32: a write of a LOADING track that passed. -/
def State.settleWrite (s : State) (lb : LoadBuf) (k : BankNo) : State :=
  (s.modTrack lb.trackId (fun t =>
    { t with
      inFlight := t.inFlight - 1
      settled := some (lb.landing + lb.data.length)
      priorCheckpoint := if t.keepsPrior (s.banks[k]) then t.priorCheckpoint else none })).decideSeal lb.trackId

/-- R33: the track rolled back to the checkpoint of the failing segment, ordinal `ord`. -/
def Track.rollback (t : Track) (ord : Nat) : Track :=
  let cp := (if t.segs.length ≤ ord + 1 then t.checkpoint else t.priorCheckpoint).getD ParserState.start
  { t with
    segs := t.segs.filter (fun e => decide (e.ord < ord))
    running := some cp
    writePos := some cp.offset
    settled := some cp.offset
    rewind := some cp.offset
    checkpoint := none
    priorCheckpoint := none
    inFlight := 0
    sealPending := false
    sealPage := none }

/-- The ordinal of a segment in a track's list. -/
def Track.ordOf (t : Track) (g : SegNo) : Nat :=
  match t.segs.find? (fun e => decide (e.seg = g)) with
  | some e => e.ord
  | none => t.segs.length

/-- R33 and R36: a write of a LOADING track that failed, its segment being retired. -/
def State.failWrite (s : State) (t : Track) (lb : LoadBuf) (k : BankNo) : State :=
  let ord := t.ordOf lb.seg
  let later := (t.segs.filter (fun e => decide (ord < e.ord))).map (·.seg)
  let s1 := (s.modBank k (fun b => b.withdraw t.id)).releaseSegs k later
  let s2 := (s1.modTrack t.id (fun t => t.rollback ord)).raiseDevice .writeFail
  if t.sealPending then s2.refuseDeferred 0x32 t.id .rewind (((t.rollback ord).rewind).getD 0) else s2

/-- R37: a write of a DELETING track has completed; its segments are now released. -/
def State.resumeDelete (s : State) (t : Track) (g : SegNo) (pass : Bool) : State :=
  let t1 := { t with
    inFlight := 0
    segs := if pass then t.segs else t.segs.filter (fun e => !decide (e.seg = g)) }
  let s1 := s.modTrack t.id (fun _ => t1)
  (if pass then s1 else s1.raiseDevice .writeFail).releaseTrack t1

/-- The outcome of a page write is delivered to the Loader, a failed segment having been retired (R8). -/
def State.writeOutcome (s : State) (k : BankNo) (lb : LoadBuf) (pass : Bool) : State :=
  let s1 := s.modBank k (fun b => if pass then { b with op := none } else { b.retire lb.seg with op := none })
  match s1.track? lb.trackId with
  | none => s1
  | some t =>
    if t.state = .deleting then s1.resumeDelete t lb.seg pass
    else if pass then s1.settleWrite lb k
    else s1.failWrite t lb k

/-- The tag slot of a load-buffer write (R8): the data check covers the page's existing bytes and the new ones. -/
def LoadBuf.tag (lb : LoadBuf) (a : BankArray) : TagSlot :=
  makeSlot lb.slot lb.fillAfter (crc (a.bytes lb.seg lb.page lb.fillBefore ++ lb.data)) lb.segTag

/-- A page write completes, the array having taken it as `flaw` says, or as given (R8, R23; log 8). -/
def State.pageWriteComplete (s : State) (k : BankNo) (flaw : Option WriteFlaw) : State :=
  match (s.banks[k]).op with
  | some (.pageWrite lb) =>
    let a := s.arrays[k]
    let written := a.write lb.seg lb.page lb.slot lb.fillBefore (lb.tag a) lb.data flaw
    let s1 := s.setArray k written.1
    if (s.banks[k]).halted then s1.discardOutcome k else (s1.writeOutcome k lb written.2).arbitrate k
  | _ => s

/-! ### The meanings -/

def execTrackCreate (tag : Byte) (trackId kind : Nat) (lang : Lang) (bank : Nat) (s : State) :
    Host.Outcome State Fault Refusal :=
  .next (s.command 0x30 tag (takeTrackCreate trackId kind lang bank))

def execTrackWrite (tag : Byte) (trackId expected : Nat) (data : List Byte) (s : State) :
    Host.Outcome State Fault Refusal :=
  .next (s.command 0x31 tag (takeTrackWrite trackId expected data))

def execTrackSeal (tag : Byte) (trackId expected : Nat) (s : State) : Host.Outcome State Fault Refusal :=
  .next (s.command 0x32 tag (takeTrackSeal trackId expected))

def execTrackDelete (tag : Byte) (trackId : Nat) (s : State) : Host.Outcome State Fault Refusal :=
  .next (s.command 0x34 tag (takeTrackDelete trackId))

def execTrackInfo (tag : Byte) (trackId : Nat) (s : State) : Host.Outcome State Fault Refusal :=
  .next (s.command 0x35 tag (takeTrackInfo trackId))

def execStoreInfo (tag : Byte) (s : State) : Host.Outcome State Fault Refusal :=
  .next (s.command 0x36 tag takeStoreInfo)

/-- PAGE_WRITE_COMPLETE (R8). -/
def execPageWriteComplete (bank : BankNo) (flaw : Option WriteFlaw) (s : State) :
    Host.Outcome State Fault Refusal :=
  .next (s.ifPowered (fun s => s.pageWriteComplete bank flaw))

end Sys2Proof.Machine
end

