-- ==== Sys2Proof/Machine/Mover.lean ====
section
/-! DEFINITION. The Mover (R39 to R43), and the completions of a move step (R11), a segment clear (R9) and a page
fetch (R7). -/

namespace Sys2Proof.Machine

open Sys2Proof

/-! ### TRACK_MOVE is judged (R39) -/

/-- A patch out of form after one that ends at `low`, in a track of known length (R39 step 5). -/
def Patch.outOfForm (length : Option Nat) (low : Nat) (p : Patch) : Bool :=
  decide (p.bytes.length = 0) || decide (64 < p.bytes.length) || decide (p.offset < low) ||
    (match length with
     | none => false
     | some n => decide (n < p.offset + p.bytes.length + headerBytes))

/-- The number of the first patch out of form, the next patch being number `i`. -/
def badPatch? (length : Option Nat) : Nat → Nat → List Patch → Option Nat
  | _, _, [] => none
  | i, low, p :: ps =>
    if Patch.outOfForm length low p then some i else badPatch? length (i + 1) (p.offset + p.bytes.length) ps

/-! ### Aborting and completing (R42, R43) -/

/-- The track's move progress is discarded and it is SEALED again. -/
def Track.endMove (t : Track) : Track := { t with state := .sealed, move := none }

def Track.targets (t : Track) : List SegNo :=
  match t.move with
  | none => []
  | some m => m.targets.map (·.seg)

/-- R42: the targets are released in ascending ordinal, the track is SEALED as it was, and REFUSED is sent. -/
def State.abortMove (s : State) (t : Track) (reason : Reason) (detail : Nat) : State :=
  ((s.releaseSegs t.bank t.targets).modTrack t.id Track.endMove).refuseDeferred 0x33 t.id reason detail

/-- R43: targets enter OWNED and lose their cursors. -/
def Bank.ownTarget (b : Bank) (g : SegNo) : Bank := b.modSeg g (fun e => { e with pool := .owned, cursor := none })

/-- R43: the entry after the switch-over, the Mover's parse having come to `p`. -/
def Track.switchOver (t : Track) (m : MoveProgress) (p : ParserState) : Track :=
  { t with
    segs := m.targets
    gen := t.gen + 1
    summary := t.summary.map (fun x => { x with count := p.count, lastEnd := p.lastEnd, longest := p.longest })
    state := .sealed
    move := none }

/-- R43, with DONE. -/
def State.completeMove (s : State) (t : Track) (m : MoveProgress) (p : ParserState) : State :=
  let t1 := t.switchOver m p
  let s1 := s.modBank t.bank (fun b => (m.targets.map (·.seg)).foldl Bank.ownTarget b)
  let s2 := (s1.modTrack t.id (fun _ => t1)).releaseSegs t.bank (t.segs.map (·.seg))
  s2.doneDeferred 0x33 t.id (u8 t1.gen ++ (match t1.summary with | none => [] | some x => x.bytes))

/-! ### Targets (R18, R40) -/

/-- The next step's target is held: the step is made ready, and its write placed with the close indication (R5). -/
def State.placeStep (s : State) (k : BankNo) (g : SegNo) : State := s.modBank k (fun b => b.placeWrite g 0 true)

/-- A move's next target is needed: the head of the free list is taken, or the move waits, or it aborts with NO_SPACE.
SEGMENTS_LOW is judged by the event (R21). -/
def State.needTarget (s : State) (t : Track) (m : MoveProgress) : State :=
  match (s.banks[t.bank]).free with
  | g :: _ =>
    ((s.modBank t.bank (fun b => b.takeFree g .moveTarget)).placeStep t.bank g).modTrack t.id (fun t =>
      { t with move := some { m with targets := m.targets ++ [⟨m.next.ord, g, 0⟩] } })
  | [] => if (s.banks[t.bank]).clearQ.isEmpty then s.abortMove t .noSpace 0 else s

/-- A move of the bank that waits for a target is re-examined (R18). -/
def State.recheckMove (s : State) (k : BankNo) : State :=
  match s.movingTrack? k with
  | none => s
  | some t => match t.move with
    | none => s
    | some m => if (segOf? m.targets m.next.ord).isSome then s else s.needTarget t m

/-- An accepted TRACK_MOVE (R40). -/
def State.beginMove (s : State) (t : Track) (patches : List Patch) : State :=
  let m : MoveProgress := ⟨patches, ⟨0, 0⟩, 0, [], ParserState.start⟩
  let t1 := { t with state := .moving, move := some m }
  s.judgeLow ((s.modTrack t.id (fun _ => t1)).needTarget t1 m) t.bank

def takeTrackMove (trackId : Nat) (patches : List Patch) (place : Nat) (s : State) : State :=
  if 16 < patches.length then s.refuse place .badLength (moveBodyLength patches)
  else if s.mounting then s.refuse place .mounting 0
  else match s.track? trackId with
    | none => s.refuse place .notFound 0
    | some t =>
      if t.state ≠ .sealed ∨ t.gen = 255 then s.refuse place .badState 0
      else if (s.movingTrack? t.bank).isSome then s.refuse place .busy 0
      else match badPatch? t.writePos 1 0 patches with
        | some i => s.refuse place .badArg i
        | none => ((s.defer place trackId).beginMove t patches).arbitrate t.bank

/-! ### A move step (R11, R41) -/

/-- The bytes of one patch written over the data of a page that begins at a track byte offset (R41). -/
def overlay (base : Nat) (data : List Byte) (p : Patch) : List Byte :=
  let from_ := max p.offset base
  let put := (p.bytes.drop (from_ - p.offset)).take (base + data.length - from_)
  if p.offset + p.bytes.length ≤ base ∨ base + data.length ≤ p.offset then data
  else data.take (from_ - base) ++ put ++ data.drop (from_ - base + put.length)

/-- The number of the first patch with bytes at or beyond the END record's first byte. -/
def patchPastEnd? (endOff : Nat) (patches : List Patch) : Option Nat :=
  (patches.findIdx? (fun p => decide (endOff < p.offset + p.bytes.length))).map (· + 1)

/-- What a step is to do after its source read. -/
inductive StepPlan where
  | sourceFail
  | stopped (reason : Reason) (detail : Nat)
  | write (state : ParserState) (data : List Byte)
deriving DecidableEq, Repr

/-- R41 for a page before the track's last, already patched. -/
def planPage (t : Track) (m : MoveProgress) (data : List Byte) : StepPlan :=
  match parse t.kind m.parser data with
  | .bad reason offset => .stopped reason offset
  | .ok p _ => .write p data

/-- R41 for the track's last page, already patched: its content, then the END record in its last 12 bytes, at a cue
boundary and with no pad before it in the page; the END record's fields are rewritten (log 24). -/
def planLastPage (t : Track) (m : MoveProgress) (data : List Byte) : StepPlan :=
  if data.length < headerBytes then .stopped .badCue m.parser.offset
  else
    let n := data.length - headerBytes
    match parse t.kind m.parser (data.take n) with
    | .bad reason offset => .stopped reason offset
    | .ok p pad =>
      if pad then .stopped .badCue (p.offset - 1)
      else if 0 < p.openBytes ∨ (data[n]?).getD 0 ≠ endKind then .stopped .badCue p.offset
      else
        .write { p with offset := p.offset + headerBytes }
          (data.take n ++ endRecord p.count p.lastEnd p.longest (t.gen + 1))

/-- R41: patching, parsing, and the END record of the last page. In a last page a patch that reaches into the END record is
judged before the parse, so it ends the step even where the content before it violates the form checks too (log 24). -/
def planStep (t : Track) (m : MoveProgress) (source : Option (Nat × List Byte)) : StepPlan :=
  match source with
  | none => .sourceFail
  | some (fill, raw) =>
    let data := m.patches.foldl (overlay m.parser.offset) raw
    if some m.next = t.summary.map (·.endPage) then
      match (if fill < headerBytes then none else patchPastEnd? (m.parser.offset + fill - headerBytes) m.patches) with
      | some i => .stopped .badArg i
      | none => planLastPage t m data
    else planPage t m data

/-- The tag slot of a step's write: slot 0, with the segment tag of the new generation on page 0 (R11, R41). -/
def stepTag (t : Track) (m : MoveProgress) (data : List Byte) : TagSlot :=
  makeSlot 0 data.length (crc data)
    (if m.next.pg = 0 then some (t.segTag (t.gen + 1) m.next.ord (entryFrame t.kind m.parser data)) else none)

/-- A target's entry frame, given at its page 0 (R41, R43). -/
def setEntryFrame (ord entry : Nat) (segs : List SegElem) : List SegElem :=
  segs.map (fun e => if e.ord = ord then { e with entry := entry } else e)

/-- R41: a step that wrote its page has completed DONE. -/
def State.stepDone (s : State) (t : Track) (m : MoveProgress) (target : SegNo) (p : ParserState) (data : List Byte) :
    State :=
  let m1 := { m with
    moved := m.moved + 1
    parser := p
    targets := if m.next.pg = 0 then setEntryFrame m.next.ord (entryFrame t.kind m.parser data) m.targets else m.targets }
  if some m.next = t.summary.map (·.endPage) then s.completeMove t m1 p
  else
    let m2 := { m1 with next := m.next.next }
    let s1 := s.modTrack t.id (fun t => { t with move := some m2 })
    if m2.next.pg = 0 then s1.needTarget { t with move := some m2 } m2 else s1.placeStep t.bank target

/-- R42: the failed target is retired and leaves the target list, and the move aborts. -/
def State.stepWriteFail (s : State) (k : BankNo) (t : Track) (m : MoveProgress) (target : SegNo) : State :=
  let m1 := { m with targets := m.targets.filter (fun e => !decide (e.seg = target)) }
  (s.modBank k (fun b => b.retire target)).abortMove { t with move := some m1 } .moveFailed m.next.detail

/-- A step's end is delivered to the Mover (R11, R41 to R43). -/
def State.stepOutcome (s : State) (k : BankNo) (t : Track) (m : MoveProgress) (target : SegNo) (plan : StepPlan)
    (pass : Bool) : State :=
  match plan with
  | .sourceFail => s.abortMove t .moveFailed m.next.detail
  | .stopped reason detail => s.abortMove t reason detail
  | .write p data => if pass then s.stepDone t m target p data else s.stepWriteFail k t m target

/-- The array after a step, and whether its write was confirmed. -/
def stepArray (a : BankArray) (t : Track) (m : MoveProgress) (target : SegNo) (pg : Nat) (plan : StepPlan)
    (flaw : Option WriteFlaw) : BankArray × Bool :=
  match plan with
  | .write _ data => a.write target pg 0 0 (stepTag t m data) data flaw
  | _ => (a, false)

/-- What a read of a page gives: what the completion says it gave, or the array as it stands (log 8). -/
def BankArray.seen (a : BankArray) (seg : SegNo) (page : Nat) (seen : Option PageView) : PageView :=
  seen.getD (a.view seg page)

/-- A move step completes (R11). The move register fills and empties within the step (R15). -/
def State.moveStepComplete (s : State) (k : BankNo) (seen : Option PageView) (flaw : Option WriteFlaw) : State :=
  match (s.banks[k]).op with
  | some (.moveStep id src tgt page) =>
    match s.track? id with
    | none => s.discardOutcome k
    | some t => match t.move with
      | none => s.discardOutcome k
      | some m =>
        let a := s.arrays[k]
        let plan := planStep t m (judgePage (a.seen src page.pg seen))
        let written := stepArray a t m tgt page.pg plan flaw
        let s1 := s.setArray k written.1
        if (s.banks[k]).halted then s1.discardOutcome k
        else
          let s2 := s1.modBank k (fun b => { b with op := none })
          (s1.judgeLow (s2.stepOutcome k t m tgt plan written.2) k).arbitrate k
  | _ => s

/-! ### A segment clear completes (R9, R38) -/

/-- R9: the cleared segment leaves the head of the clear queue. -/
def Bank.endClear (b : Bank) (g : SegNo) (pass : Bool) : Bank :=
  let b1 := { b with op := none, clearQ := b.clearQ.drop 1 }
  if pass then { (b1.modSeg g (fun e => { e with pool := .free })) with free := b.free ++ [g] } else b1.retire g

/-- The track whose delete released a segment of a bank. -/
def State.clearingTrack? (s : State) (k : BankNo) (g : SegNo) : Option Track :=
  s.tracks.find? (fun t => decide (t.bank = k) && decide (g ∈ t.clearing))

/-- R38: a clear is reported to the directory. -/
def State.reportClear (s : State) (k : BankNo) (g : SegNo) : State :=
  match s.clearingTrack? k g with
  | none => s
  | some t =>
    let left := t.clearing.filter (fun x => !decide (x = g))
    if left.isEmpty then s.endDelete t.id else s.modTrack t.id (fun t => { t with clearing := left })

/-- A segment clear completes (R9), leaving written what `flaw` says (log 8). Where one that fails both aborts a move that
waited for the segment and ends a delete, the move's REFUSED comes before the delete's DONE (log 19). -/
def State.clearComplete (s : State) (k : BankNo) (flaw : ClearFlaw) : State :=
  match (s.banks[k]).op with
  | some (.clear g) =>
    let cleared := (s.arrays[k]).clear g flaw
    let s1 := s.setArray k cleared.1
    if (s.banks[k]).halted then s1.discardOutcome k
    else
      let s2 := (s1.modBank k (fun b => b.endClear g cleared.2)).recheckMove k
      (s1.judgeLow (s2.reportClear k g) k).arbitrate k
  | _ => s

/-! ### A page fetch completes (R7, R83) -/

/-- R7 and R20: the request leaves the fetch queue and its segment's count falls. -/
def Bank.endFetch (b : Bank) (q : FetchReq) : Bank :=
  { b.dropRef q.seg with op := none, fetchQ := b.fetchQ.drop 1 }

/-- R7, R20 and R23: a fetch that completes after SOFT_RESET was taken. The request leaves the fetch queue and its
segment's count falls; no pool transition takes place, so a drain-set segment stays where it is. -/
def Bank.discardFetch (b : Bank) (q : FetchReq) : Bank := { b.lowerRef q.seg with fetchQ := b.fetchQ.drop 1 }

/-- A page fetch completes and its result is delivered to the binding (R7, R83). After SOFT_RESET the request still leaves
the queue and the count falls, and the outcome is discarded without delivery (R7, R23), though R176 has bindings go on
taking fetch results until quiescence (log 35). -/
def State.fetchComplete (s : State) (k : BankNo) (seen : Option PageView) : State :=
  match (s.banks[k]).op with
  | some (.fetch q) =>
    if (s.banks[k]).halted then (s.modBank k (fun b => b.discardFetch q)).discardOutcome k
    else
      let result := judgePage ((s.arrays[k]).seen q.seg q.page seen)
      let s1 := s.modBank k (fun b => b.endFetch q)
      ((s1.runBinding q.room q.binding (takeResult q.gen result)).refreshTally q.room).arbitrateBoth
  | _ => s

/-! ### The meanings -/

def execTrackMove (tag : Byte) (trackId : Nat) (patches : List Patch) (s : State) :
    Host.Outcome State Fault Refusal :=
  .next (s.command 0x33 tag (takeTrackMove trackId patches))

/-- MOVE_STEP_COMPLETE (R11). -/
def execMoveStepComplete (bank : BankNo) (seen : Option PageView) (flaw : Option WriteFlaw) (s : State) :
    Host.Outcome State Fault Refusal :=
  .next (s.ifPowered (fun s => s.moveStepComplete bank seen flaw))

/-- CLEAR_COMPLETE (R9). -/
def execClearComplete (bank : BankNo) (flaw : ClearFlaw) (s : State) : Host.Outcome State Fault Refusal :=
  .next (s.ifPowered (fun s => s.clearComplete bank flaw))

/-- FETCH_COMPLETE (R7). -/
def execFetchComplete (bank : BankNo) (seen : Option PageView) (s : State) : Host.Outcome State Fault Refusal :=
  .next (s.ifPowered (fun s => s.fetchComplete bank seen))

end Sys2Proof.Machine
end

