-- ==== Sys2Proof/Machine/Mount.lean ====
section
/-! DEFINITION. The mount (R47 to R51): what each tag read and page read tells it, what it reads next, and the merge
of the two banks. -/

namespace Sys2Proof.Machine

open Sys2Proof

/-! ### Classifying segments (R47) -/

/-- R47: the segment tag's fields are in range. -/
def SegTag.valid (t : SegTag) : Bool :=
  !decide (t.trackId = 0) && (TrackKind.ofCode? t.kind).isSome && Lang.valid t.lang

/-- The member a page 0 tag slot makes its segment, if any. -/
def memberOf? (seg : SegNo) (t : TagSlot) : Option Member :=
  match t.segTag with
  | none => none
  | some g => if slotIntact 0 t && SegTag.valid g then some ⟨seg, g⟩ else none

/-- One segment classified by its page 0 tag slot 0: none is BLANK. -/
def MountProgress.classify (m : MountProgress) (seg : SegNo) (slot : Option TagSlot) : MountProgress :=
  match slot with
  | none => { m with toFree := m.toFree ++ [seg] }
  | some t => match memberOf? seg t with
    | none => { m with toClear := m.toClear ++ [seg] }
    | some x => { m with members := m.members ++ [x] }

/-! ### Groups and contests (R47, R48) -/

def Member.sameGroup (a b : Member) : Bool := decide (a.tag.trackId = b.tag.trackId) && decide (a.tag.gen = b.tag.gen)

def Member.samePlace (a b : Member) : Bool := a.sameGroup b && decide (a.tag.ordinal = b.tag.ordinal)

/-- Members gathered into classes, in the order of each class's first member (log 23). `n` bounds the classes. -/
def classesN (same : Member → Member → Bool) : Nat → List Member → List (List Member)
  | 0, _ => []
  | _ + 1, [] => []
  | n + 1, a :: rest =>
    (a :: rest.filter (same a)) :: classesN same n (rest.filter (fun b => !same a b))

def classes (same : Member → Member → Bool) (ms : List Member) : List (List Member) := classesN same ms.length ms

/-- The contended ordinals of every group. -/
def contestsOf (ms : List Member) : List (List Member) :=
  (classes Member.samePlace ms).filter (fun c => decide (2 ≤ c.length))

/-- R48: one contender is to be kept rather than another. -/
def Contender.beats (a b : Contender) : Bool :=
  if a.sound != b.sound then a.sound
  else if a.pages ≠ b.pages then decide (b.pages < a.pages)
  else decide (b.member.seg < a.member.seg)

/-- The contender to be kept. -/
def keptOf : List Contender → Option Contender
  | [] => none
  | c :: cs => match keptOf cs with
    | none => some c
    | some d => if d.beats c then some d else some c

/-- A member joins a list in ordinal order. -/
def insertMember (x : Member) : List Member → List Member
  | [] => [x]
  | y :: ys => if x.tag.ordinal < y.tag.ordinal then x :: y :: ys else y :: insertMember x ys

/-- The member whose kind and language a group takes: its ordinal-0 segment, or its lowest-numbered one (R48). -/
def groupHead (c : List Member) : Option Member :=
  match c.find? (fun x => decide (x.tag.ordinal = 0)) with
  | some x => some x
  | none => c.foldl (fun best x => match best with
    | none => some x
    | some y => if x.seg < y.seg then some x else some y) none

/-- A member agrees with its group's kind and language. -/
def Member.agrees (h x : Member) : Bool := decide (x.tag.kind = h.tag.kind) && decide (x.tag.lang = h.tag.lang)

/-- A class of members as a group, with those to be cleared. -/
def groupOf (c : List Member) : Option (Group × List SegNo) :=
  match groupHead c with
  | none => none
  | some h =>
    some (⟨h.tag.trackId, h.tag.gen, (TrackKind.ofCode? h.tag.kind).getD .text, h.tag.lang,
      (c.filter h.agrees).foldl (fun l x => insertMember x l) []⟩,
      (c.filter (fun x => !h.agrees x)).map (·.seg))

/-! ### Judging groups (R49) -/

/-- The last 12 data bytes of a page form an END record of a generation: its cue count, last end frame and longest
span. A last end frame or longest span above 16,777,215 is taken as it stands (the model's choice, log 37). -/
def endRecordOf? (gen fill : Nat) (data : List Byte) : Option (Nat × Nat × Nat) :=
  let r := data.drop (fill - headerBytes)
  if headerBytes ≤ fill ∧ (r[0]?).getD 0 = endKind ∧ field r 11 1 = gen then
    some (field r 1 2, field r 3 4, field r 7 4)
  else none

/-- Every ordinal from 0 to the highest has a member. -/
def Group.whole (g : Group) : Bool :=
  match g.members.getLast? with
  | none => false
  | some top => (List.range (top.tag.ordinal + 1)).all (fun o => g.members.any (fun x => decide (x.tag.ordinal = o)))

/-- R49: the seal summary of a group, its last written page `page` of the highest ordinal having been read. -/
def Group.judge (g : Group) (page : Nat) (read : Option (Nat × List Byte)) : Judged :=
  let ord := match g.members.getLast? with
    | none => 0
    | some top => top.tag.ordinal
  match read with
  | none => ⟨g, none⟩
  | some (fill, data) =>
    if g.whole then
      ⟨g, (endRecordOf? g.gen fill data).map (fun (count, lastEnd, longest) => ⟨count, lastEnd, longest, ⟨ord, page⟩⟩)⟩
    else ⟨g, none⟩

/-! ### Selecting groups (R50) -/

/-- R50: one group of a track ID is to be kept rather than another. -/
def Judged.beats (a b : Judged) : Bool :=
  if a.summary.isSome != b.summary.isSome then a.summary.isSome else decide (b.group.gen < a.group.gen)

/-- The group of the list that is kept for a track ID. -/
def keptGroup (id : Nat) (js : List Judged) : Option Judged :=
  (js.filter (fun j => decide (j.group.trackId = id))).foldl (fun best j => match best with
    | none => some j
    | some k => if j.beats k then some j else some k) none

/-- A group is the one kept for its track ID. -/
def isKept (js : List Judged) (j : Judged) : Bool := decide (keptGroup j.group.trackId js = some j)

def Group.segs (g : Group) : List SegNo := g.members.map (·.seg)

/-! ### From phase to phase -/

/-- R50, when the last group has been judged. -/
def MountProgress.select (m : MountProgress) (js : List Judged) : MountProgress :=
  { m with
    phase := .finished (js.filter (isKept js))
    toClear := m.toClear ++ (js.filter (fun j => !isKept js j)).flatMap (fun j => j.group.segs) }

/-- The groups that follow are judged, or none is left. -/
def MountProgress.judgeFrom (m : MountProgress) (gs : List Group) (js : List Judged) : MountProgress :=
  match gs with
  | g :: rest => { m with phase := .judge g 0 64 rest js }
  | [] => m.select js

/-- The groups of the members that are left (R47, R48). -/
def MountProgress.beginJudging (m : MountProgress) : MountProgress :=
  let gs : List (Group × List SegNo) := (classes Member.sameGroup m.members).filterMap groupOf
  ({ m with toClear := m.toClear ++ gs.flatMap (fun x => x.2) } : MountProgress).judgeFrom (gs.map (fun x => x.1)) []

/-- The contests that follow are read, or the groups are judged. -/
def MountProgress.contestFrom (m : MountProgress) (cs : List (List Member)) : MountProgress :=
  match cs with
  | c :: rest => { m with phase := .contest c 0 0 [] rest }
  | [] => m.beginJudging

/-- A contest has been read: the contenders not kept are to be cleared (R48). -/
def MountProgress.endContest (m : MountProgress) (done : List Contender) (rest : List (List Member)) : MountProgress :=
  let losers := match keptOf done with
    | none => []
    | some c => (done.filter (fun d => !decide (d.member.seg = c.member.seg))).map (·.member.seg)
  ({ m with
    toClear := m.toClear ++ losers
    members := m.members.filter (fun x => !decide (x.seg ∈ losers)) } : MountProgress).contestFrom rest

/-- What a tag read tells the mount (R47, R49). -/
def MountProgress.tagRead (m : MountProgress) (slot : Option TagSlot) : MountProgress :=
  match m.phase with
  | .scan seg =>
    let m1 := m.classify seg slot
    if h : seg.val + 1 < 2048 then { m1 with phase := .scan ⟨seg.val + 1, h⟩ }
    else m1.contestFrom (contestsOf m1.members)
  | .judge g lo hi rest js =>
    let mid := (lo + hi) / 2
    { m with phase := if slot.isSome then .judge g mid hi rest js else .judge g lo mid rest js }
  | _ => m

/-- What a mount page read tells the mount: the fill mark and data, or none for CHECK_FAIL (R48, R49). -/
def MountProgress.pageRead (m : MountProgress) (read : Option (Nat × List Byte)) : MountProgress :=
  match m.phase with
  | .contest (c :: cs) page pages done rest =>
    let next (x : Contender) : MountProgress :=
      match cs with
      | [] => m.endContest (done ++ [x]) rest
      | _ :: _ => { m with phase := .contest cs 0 0 (done ++ [x]) rest }
    match read with
    | none => next ⟨c, false, pages⟩
    | some (fill, _) =>
      if fill = 0 then next ⟨c, true, pages⟩
      else if 63 ≤ page then next ⟨c, true, pages + 1⟩
      else { m with phase := .contest (c :: cs) (page + 1) (pages + 1) done rest }
  | .judge g lo _ rest js => m.judgeFrom rest (js ++ [g.judge lo read])
  | _ => m

/-! ### The merge (R51) -/

/-- The groups a finished bank keeps. -/
def MountProgress.kept? (m : MountProgress) : Option (List Judged) :=
  match m.phase with
  | .finished kept => some kept
  | _ => none

/-- A directory entry of a kept group (R50). -/
def Judged.entry (j : Judged) (bank : BankNo) : Track :=
  { Track.create j.group.trackId j.group.kind j.group.lang bank with
    state := if j.summary.isSome then .sealed else .incomplete
    gen := j.group.gen
    segs := j.group.members.map (fun x => ⟨x.tag.ordinal, x.seg, x.tag.entry⟩)
    writePos := none
    settled := none
    running := none
    summary := j.summary }

/-- R51 steps 1 and 2: the entries of both banks in ascending ID, bank 0's before bank 1's, at most 128. -/
def mergedTracks (kept0 kept1 : List Judged) : List Track :=
  let own0 := kept0.map (fun j => j.entry 0)
  let own1 := (kept1.filter (fun j => !(kept0.any (fun i => decide (i.group.trackId = j.group.trackId))))).map (fun j => j.entry 1)
  ((own0 ++ own1).foldl (fun l t => insertTrack t l) []).take Config.directoryEntries

/-- Segments in ascending number. -/
def insertSeg (g : SegNo) : List SegNo → List SegNo
  | [] => [g]
  | h :: hs => if g < h then g :: h :: hs else h :: insertSeg g hs

/-- The segments of the entries of one bank. -/
def ownedSegs (ts : List Track) (k : BankNo) : List SegNo :=
  (ts.filter (fun t => decide (t.bank = k))).flatMap (fun t => t.segs.map (·.seg))

/-- R51 steps 3 and 4 in one bank: kept groups' segments that no entry owns are to be cleared with the others. -/
def Bank.merge (b : Bank) (m : MountProgress) (kept : List Judged) (owned : List SegNo) : Bank :=
  let dropped := (kept.flatMap (fun j => j.group.segs)).filter (fun g => !decide (g ∈ owned))
  { b with
    segs := Vector.ofFn (fun g =>
      ⟨if g ∈ owned then .owned else if g ∈ m.toFree then .free else .clearQueue, 0, none⟩)
    free := m.toFree
    clearQ := (m.toClear ++ dropped).foldl (fun l g => insertSeg g l) []
    mount := none }

/-- R21 at the completion of a bank's mount. -/
def State.judgeMounted (s : State) (k : BankNo) : State :=
  if (s.banks[k]).freePlusClear < Config.segmentsLow then s.raiseDevice .segmentsLow else s

/-- R51: once both banks have finished, their results are merged. -/
def State.mergeMounts (s : State) : State :=
  match (s.banks[0]).mount, (s.banks[1]).mount with
  | some m0, some m1 => match m0.kept?, m1.kept? with
    | some kept0, some kept1 =>
      let ts := mergedTracks kept0 kept1
      let s1 := (s.modBank 0 (fun b => b.merge m0 kept0 (ownedSegs ts 0))).modBank 1
        (fun b => b.merge m1 kept1 (ownedSegs ts 1))
      ((({ s1 with tracks := ts }.judgeMounted 0).judgeMounted 1).raiseDevice .mountDone)
    | _, _ => s
  | _, _ => s

/-! ### Mount reads complete (R10) -/

/-- A mount read has ended in a bank, and the mount goes on as `f` says. -/
def State.mountStep (s : State) (k : BankNo) (f : MountProgress → MountProgress) : State :=
  ((s.modBank k (fun b => { b with op := none, mount := b.mount.map f })).mergeMounts).arbitrateBoth

/-- A tag read completes, giving what `seen` says, or the array as it stands (log 8). -/
def State.tagReadComplete (s : State) (k : BankNo) (seen : Option (Option TagSlot)) : State :=
  match (s.banks[k]).op with
  | some (.tagRead seg page slot) =>
    if (s.banks[k]).halted then s.discardOutcome k
    else s.mountStep k (fun m => m.tagRead (seen.getD ((s.arrays[k]).slot seg page slot)))
  | _ => s

/-- A mount page read completes (log 8). -/
def State.mountPageReadComplete (s : State) (k : BankNo) (seen : Option PageView) : State :=
  match (s.banks[k]).op with
  | some (.pageRead seg page) =>
    if (s.banks[k]).halted then s.discardOutcome k
    else s.mountStep k (fun m => m.pageRead (judgePage ((s.arrays[k]).seen seg page seen)))
  | _ => s

/-! ### The meanings -/

/-- TAG_READ_COMPLETE (R10). -/
def execTagReadComplete (bank : BankNo) (seen : Option (Option TagSlot)) (s : State) :
    Host.Outcome State Fault Refusal :=
  .next (s.ifPowered (fun s => s.tagReadComplete bank seen))

/-- MOUNT_PAGE_READ_COMPLETE (R10). -/
def execMountPageReadComplete (bank : BankNo) (seen : Option PageView) (s : State) :
    Host.Outcome State Fault Refusal :=
  .next (s.ifPowered (fun s => s.mountPageReadComplete bank seen))

end Sys2Proof.Machine
end

