-- ==== Sys2Proof/Machine/Power.lean ====
section
/-! DEFINITION. Power: POWER_ON (R178, R22) and POWER_FAIL (R12). -/

namespace Sys2Proof.Machine

open Sys2Proof

/-- R167: the rate that the strap pins select. -/
def strapRate (baud1 baud0 : Bool) : Nat :=
  match baud1, baud0 with
  | false, false => 115200
  | false, true => 460800
  | true, false => 921600
  | true, true => 1843200

/-- A write cut by a power failure (R12, R8: the tag slot is written first). With its tag slot intact the write has
left a page that a later fetch gives CHECK_FAIL; a choice that does not fit leaves the array as it was (log 9). -/
def BankArray.cutWrite (a : BankArray) (seg : SegNo) (page slot fillBefore : Nat) (tag : TagSlot) (data : List Byte)
    (cut : ArrayCut) : BankArray :=
  match cut with
  | .slotDamaged => a.hold seg page slot fillBefore (some (damageSlot tag)) []
  | .dataCut n =>
    let cut := a.hold seg page slot fillBefore (some tag) ((data.take n).map some)
    if n < data.length ∧ judgePage (cut.view seg page) = none then cut else a
  | _ => a

/-- The array of a bank after a power failure during an operation (R12). -/
def State.cutArray (s : State) (k : BankNo) (cut : ArrayCut) : BankArray :=
  let a := s.arrays[k]
  match (s.banks[k]).op with
  | some (.pageWrite lb) => a.cutWrite lb.seg lb.page lb.slot lb.fillBefore (lb.tag a) lb.data cut
  | some (.clear g) =>
    match cut with
    | .clearCut n f0 f1 f2 f3 => a.cutClear g n f0 f1 f2 f3
    | _ => a
  | some (.moveStep id src tgt page) =>
    match s.track? id with
    | none => a
    | some t => match t.move with
      | none => a
      | some m => match planStep t m (judgePage (a.view src page.pg)) with
        | .write _ data => a.cutWrite tgt page.pg 0 0 (stepTag t m data) data cut
        | _ => a
  | _ => a

/-- A store controller without power: no operation, no mount. -/
def Bank.unpowered : Bank := { Bank.initial with op := none, mount := none }

/-- The part without power: the arrays and what is outside it are all that it keeps. -/
def State.powerDown (s : State) (arrays : Vector BankArray 2) : State :=
  { State.powerOnValues s.link.rate s.lines arrays s.pending with
    powered := false
    banks := Vector.replicate 2 Bank.unpowered }

/-- POWER_ON (R178): every block at its power-on state, the rate read from the straps, the mount begun (log 7). -/
def execPowerOn (baud1 baud0 : Bool) (s : State) : Host.Outcome State Fault Refusal :=
  .next (State.powerOnValues (strapRate baud1 baud0) s.lines s.arrays s.pending)

/-- POWER_FAIL (R12): the operation in each bank is cut as the row says (log 9). -/
def execPowerFail (cut0 cut1 : ArrayCut) (s : State) : Host.Outcome State Fault Refusal :=
  .next (s.ifPowered (fun s => s.powerDown #v[s.cutArray 0 cut0, s.cutArray 1 cut1]))

end Sys2Proof.Machine
end

