-- ==== Sys2Proof/Machine/Clock.lean ====
section
/-! DEFINITION. The show clock of a room (chapter 3): its state changes, its counted frames, its run level, its timer
and its chain; and what a change on the line matrix brings to the rooms (R59, R164). -/

namespace Sys2Proof.Machine

open Sys2Proof

/-! ### A clock enters a show state (R55, R62, R63) -/

/-- R62: three nominal frame periods. -/
def Clock.timeout (c : Clock) : Nat := 288000 / c.rate

/-- Entry to RUNNING: an empty hold-cause set, the timer of an EXTERNAL room reloaded, a paused chain going on. -/
def Clock.toRunning (c : Clock) : Clock :=
  { c with
    show_ := .running
    holds := Holds.empty
    syncTimer := if c.mode = .external then some c.timeout else none
    chain := match c.chain with
      | .paused pre div => .running pre div
      | other => other }

/-- Entry to HELD: the timer disarmed, a running chain paused with both counts. -/
def Clock.toHeld (c : Clock) : Clock :=
  { c with
    show_ := .held
    syncTimer := none
    chain := match c.chain with
      | .running pre div => .paused pre div
      | other => other }

/-- Entry to ARMED, ENDED or DARK: an empty hold-cause set, the chain stopped, the timer disarmed. -/
def Clock.toStill (c : Clock) (state : ShowState) : Clock :=
  { c with show_ := state, holds := Holds.empty, chain := .stopped, syncTimer := none }

/-- A change of show state, with STATE raised (R56). -/
def State.enterShow (s : State) (r : RoomNo) (f : Clock → Clock) : State := (s.modClock r f).raiseRoom r .state

/-! ### Hold causes (R55, R61, R62, R66) -/

/-- A cause is added to a RUNNING or HELD room; a RUNNING room becomes HELD. -/
def State.addCause (s : State) (r : RoomNo) (f : Holds → Holds) : State :=
  match (s.clock r).show_ with
  | .running => (s.enterShow r (fun c => { c.toHeld with holds := f c.holds })).refreshTally r
  | .held => s.modClock r (fun c => { c with holds := f c.holds })
  | _ => s

/-- A cause is removed from a HELD room; a room whose set becomes empty becomes RUNNING. A RUNNING room has none. -/
def State.dropCause (s : State) (r : RoomNo) (f : Holds → Holds) : State :=
  match (s.clock r).show_ with
  | .held =>
    if f (s.clock r).holds = Holds.empty then (s.enterShow r Clock.toRunning).refreshTally r
    else s.modClock r (fun c => { c with holds := f c.holds })
  | _ => s

/-! ### Counted frames (R57, R60) -/

/-- The room's show ends (R57, R68): ENDED, its bindings unloaded and wiped (R79, R104). -/
def State.enterEnded (s : State) (r : RoomNo) : State :=
  ((s.enterShow r (fun c => c.toStill .ended)).mapBindings r Binding.enterEnded).refreshTally r

/-- The position ends the show (R57). -/
def Clock.atEnd (c : Clock) : Bool := decide (c.pos = c.endPos.getD Config.maxPosition)

/-- A frame is counted (R57). -/
def State.countFrame (s : State) (r : RoomNo) : State :=
  let s1 := s.modClock r (fun c => { c with pos := c.pos + 1 })
  if (s1.clock r).atEnd then s1.enterEnded r else s1

/-- A frame pulse (R60). -/
def State.takePulse (s : State) (r : RoomNo) : State :=
  let c := s.clock r
  if c.mode = .external ∧ s.runLevel r then
    match c.show_ with
    | .armed => ((s.enterShow r Clock.toRunning).refreshTally r).countFrame r
    | .running => (s.modClock r (fun c => { c with syncTimer := some c.timeout })).countFrame r
    | .held =>
      if c.holds = ⟨false, false, true⟩ then ((s.enterShow r Clock.toRunning).refreshTally r).countFrame r else s
    | .dark | .ended => s
  else s

/-- The effective run level has changed to `level` (R61). -/
def State.runEdge (s : State) (r : RoomNo) (level : Bool) : State :=
  if (s.clock r).mode = .external then
    if level then s.dropCause r (fun h => { h with runLow := false })
    else s.addCause r (fun h => { h with runLow := true })
  else s

/-- The sync hold timer has reached 0 in a RUNNING EXTERNAL room (R62). -/
def State.syncExpiry (s : State) (r : RoomNo) : State :=
  (s.addCause r (fun h => { h with syncLost := true })).raiseRoom r .syncLost

/-! ### The chain (R63) -/

/-- The divider expires: a pending divider becomes current, the count is loaded afresh, and a RUNNING room counts a
frame. -/
def State.dividerExpiry (s : State) (r : RoomNo) : State :=
  let s1 := s.modClock r (fun c =>
    let current := match c.pendingDiv with
      | some d => some d
      | none => c.current
    { c with current := current, pendingDiv := none, chain := .running (c.p.getD 0) (current.getD 0) })
  if (s.clock r).show_ = .running then s1.countFrame r else s1

/-- The prescaler expires with `div` prescaler expiries left to the divider's own, this one counted: its count is
loaded afresh, and the divider expires at the last. -/
def State.prescalerExpiry (s : State) (r : RoomNo) (div : Nat) : State :=
  if div ≤ 1 then s.dividerExpiry r else s.modClock r (fun c => { c with chain := .running (c.p.getD 0) (div - 1) })

/-! ### What a change on the line matrix brings (R59, R61, R164) -/

/-- The run-line rises and falls between two states of the matrix, room by room (R59, R61). -/
def State.runEdges (before s : State) : State :=
  allRooms.foldl (fun x r => if before.runLevel r = s.runLevel r then x else x.runEdge r (s.runLevel r)) s

/-- A frame pulse where a FRAME_IN claim held the line before and after and the pin rose (R59). -/
def State.pulseOn (before s : State) (l : LineNo) (x : State) : State :=
  match before.holder l, s.holder l with
  | some (.frameIn, r), some (.frameIn, r') =>
    if r = r' ∧ (before.lines[l]).pin = false ∧ (s.lines[l]).pin = true then x.takePulse r else x
  | _, _ => x

/-- The pins of the lines that a change touched take their levels, and the rooms take what that brings. -/
def State.settle (before s : State) (ls : List LineNo) : State :=
  let s1 := ls.foldl State.refreshPin s
  ls.foldl (fun x l => before.pulseOn s1 l x) (before.runEdges s1)

/-- What drives a pin from outside changes (R164). -/
def State.driveFrom (s : State) (l : LineNo) (drive : Option Bool) : State :=
  s.settle (s.modLine l (fun line => { line with outside := drive })) [l]

/-- A room has left DARK: its claims join their lines, LINE_CONFLICT is raised for each blocked claim, and the lines
are settled (R162). Where a blocked RUN_IN claim takes the run level of its room down, that room's LINE_CONFLICT is raised
before the STATE of its run-line fall (log 19). -/
def State.joinLines (before s : State) (r : RoomNo) : State :=
  before.settle (before.judgeClaims s r) (s.clock r).lines

/-- A room has entered DARK: its claims leave their lines, and the lines are settled (R163). -/
def State.leaveLines (before s : State) (r : RoomNo) : State := before.settle s (s.clock r).lines

end Sys2Proof.Machine
end

