-- ==== Sys2Proof/Machine/Roster.lean ====
section
/-! DEFINITION. The roster unit (chapter 8): entries, rotas, cursors and urgent queues; ASSIGN, RELEASE and
ROSTER_READ; and the directive it produces at one position of a round. -/

namespace Sys2Proof.Machine

open Sys2Proof

/-! ### The directive path (R147) -/

def Carrier.isDirectives (c : Carrier) : Bool := decide (c = .directives)

/-- The map holds a DIRECTIVES carrier in either parity (R138). -/
def hasDirectives (map : SlotMap) : Bool := map.any (fun e => e.even.isDirectives || e.odd.isDirectives)

/-- The room's directive path is open. -/
def Room.pathOpen (room : Room) : Bool := !decide (room.clock.show_ = .dark) && hasDirectives room.comp.active

/-! ### Rota, cursor, urgent queue (R148) -/

/-- The rota entry after one, wrapping to the first of `wrap`. -/
def nextAfter (rota wrap : List RosterIx) (i : RosterIx) : Option RosterIx :=
  ((rota.dropWhile (fun j => !decide (j = i))).drop 1 ++ wrap).head?

def without (i : RosterIx) (l : List RosterIx) : List RosterIx := l.filter (fun j => !decide (j = i))

def Room.joinRota (room : Room) (i : RosterIx) : Room :=
  { room with rota := room.rota ++ [i], cursor := if room.rota.isEmpty then some i else room.cursor }

def Room.leaveRota (room : Room) (i : RosterIx) : Room :=
  { room with
    rota := without i room.rota
    cursor := if room.cursor = some i then nextAfter room.rota (without i room.rota) i else room.cursor }

def Room.joinUrgent (room : Room) (i : RosterIx) : Room :=
  if i ∈ room.urgent then room else { room with urgent := room.urgent ++ [i] }

def Room.leaveUrgent (room : Room) (i : RosterIx) : Room := { room with urgent := without i room.urgent }

/-- An entry in use changed; a free entry stays free. -/
def State.modEntry (s : State) (i : RosterIx) (f : RosterEntry → RosterEntry) : State :=
  s.setEntry i ((s.roster[i]).map f)

/-- R148: a pending forward is cancelled. -/
def State.cancelForward (s : State) (i : RosterIx) : State :=
  match (s.roster[i]).bind (fun e => e.former) with
  | none => s
  | some a =>
    (s.modRoom a (fun room => room.leaveUrgent i)).modEntry i (fun e => { e with former := none, forwardCount := 0 })

/-- R148: an entry is freed. -/
def State.freeEntry (s : State) (i : RosterIx) : State :=
  match s.roster[i] with
  | none => s
  | some e =>
    ((s.cancelForward i).modRoom e.room (fun room => (room.leaveRota i).leaveUrgent i)).setEntry i none

/-! ### Rooms that cannot send (R157) -/

/-- The entry is RELEASING in a room. -/
def RosterEntry.releasingIn (r : RoomNo) (e : RosterEntry) : Bool := e.releasing && decide (e.room = r)

/-- The entries in use that meet a test, in index order. -/
def State.entriesWhere (s : State) (p : RosterEntry → Bool) : List RosterIx :=
  allEntries.filter (fun i => (s.roster[i]).any p)

/-- The room's directive path has closed: its RELEASING entries are freed and the forwards pending in it cancelled. -/
def State.closePath (s : State) (r : RoomNo) : State :=
  let s1 := (s.entriesWhere (RosterEntry.releasingIn r)).foldl State.freeEntry s
  (s1.entriesWhere (fun e => decide (e.former = some r))).foldl State.cancelForward s1

/-- ROOM_RESET: every entry of the room is freed and every forward pending in it cancelled. -/
def State.resetRoster (s : State) (r : RoomNo) : State :=
  let s1 := (s.entriesWhere (fun e => decide (e.room = r))).foldl State.freeEntry s
  (s1.entriesWhere (fun e => decide (e.former = some r))).foldl State.cancelForward s1

/-- A map has become the active map of a room: where it holds no DIRECTIVES carrier the path is closed (R138, R157). -/
def State.reportMap (s : State) (r : RoomNo) : State :=
  if hasDirectives (s.rooms[r]).comp.active then s else s.closePath r

/-! ### ASSIGN (R149 to R152) -/

/-- The entry that holds a receiver ID. -/
def State.entryOf? (s : State) (receiver : Nat) : Option RosterIx :=
  allEntries.find? (fun i => (s.roster[i]).any (fun e => decide (e.receiver = receiver)))

/-- The lowest-numbered free entry. -/
def State.freeIndex? (s : State) : Option RosterIx := allEntries.find? (fun i => (s.roster[i]).isNone)

/-- R188's codes of the outcome of ASSIGN and RELEASE. -/
inductive RosterOutcome where
  | new | updated | moved | releasing | freed
deriving DecidableEq, Repr

def RosterOutcome.code : RosterOutcome → Nat
  | .new => 0
  | .updated => 1
  | .moved => 2
  | .releasing => 3
  | .freed => 4

/-- DONE with the entry index and the outcome. -/
def State.rosterDone (s : State) (place : Nat) (i : RosterIx) (outcome : RosterOutcome) : State :=
  s.done place (u16 i.val ++ u8 outcome.code)

/-- What ASSIGN names for an entry. -/
structure Posting where
  room    : RoomNo
  binding : Nat
  size    : Nat
  volume  : Nat
deriving DecidableEq, Repr

/-- R149: a new entry. -/
def State.assignNew (s : State) (i : RosterIx) (receiver : Nat) (p : Posting) : State :=
  (s.setEntry i (some ⟨receiver, false, p.room, p.binding, p.size, p.volume, 0, none, 0⟩)).modRoom p.room
    (fun room => (room.joinRota i).joinUrgent i)

/-- R152 and R150: back to service, updated in place. -/
def State.assignUpdate (s : State) (i : RosterIx) (p : Posting) : State :=
  (s.modEntry i (fun e =>
    { e with releasing := false, releaseCount := 0, binding := p.binding, size := p.size, volume := p.volume })).modRoom
    p.room (fun room => room.joinUrgent i)

/-- R152 and R151: back to service, moved from room `a`. -/
def State.assignMove (s : State) (i : RosterIx) (a : RoomNo) (p : Posting) : State :=
  let s1 := (s.cancelForward i).modRoom a (fun room => (room.leaveRota i).leaveUrgent i)
  let s2 := s1.modEntry i (fun e =>
    { e with
      releasing := false, releaseCount := 0
      room := p.room, binding := p.binding, size := p.size, volume := p.volume })
  let s3 := s2.modRoom p.room (fun room => (room.joinRota i).joinUrgent i)
  if (s3.rooms[a]).pathOpen then
    (s3.modEntry i (fun e => { e with former := some a, forwardCount := 2 })).modRoom a (fun room => room.joinUrgent i)
  else s3

def takeAssign (receiver room binding size volume : Nat) (place : Nat) (s : State) : State :=
  if h : room < 16 then
    if receiver = 0 ∨ 3 < binding ∨ size = 0 ∨ 4 < size ∨ 7 < volume then s.refuse place .badArg 0
    else
      let p : Posting := ⟨⟨room, h⟩, binding, size, volume⟩
      match s.entryOf? receiver with
      | none => match s.freeIndex? with
        | none => s.refuse place .noSpace 0
        | some i => (s.assignNew i receiver p).rosterDone place i .new
      | some i => match s.roster[i] with
        | none => s
        | some e =>
          if e.room = p.room then (s.assignUpdate i p).rosterDone place i .updated
          else (s.assignMove i e.room p).rosterDone place i .moved
  else s.refuse place .badArg 0

/-! ### RELEASE (R153) -/

/-- An ASSIGNED entry of an open room becomes RELEASING. -/
def State.beginRelease (s : State) (i : RosterIx) (r : RoomNo) : State :=
  (s.modEntry i (fun e => { e with releasing := true, releaseCount := 3 })).modRoom r (fun room => room.joinUrgent i)

def takeRelease (receiver : Nat) (place : Nat) (s : State) : State :=
  if receiver = 0 then s.refuse place .badArg 0
  else match s.entryOf? receiver with
    | none => s.refuse place .notFound 0
    | some i => match s.roster[i] with
      | none => s
      | some e =>
        if e.releasing then s.rosterDone place i .releasing
        else if (s.rooms[e.room]).pathOpen then (s.beginRelease i e.room).rosterDone place i .releasing
        else (s.freeEntry i).rosterDone place i .freed

/-! ### ROSTER_READ (R158) -/

/-- One entry of the reply (log 11, log 14). -/
def State.entryReport (s : State) (i : RosterIx) : List Byte :=
  match s.roster[i] with
  | none => u16 i.val ++ flagByte false
  | some e =>
    u16 i.val ++ flagByte true ++ u32 e.receiver ++ [Config.rosterStateCode e.releasing] ++ u8 e.room.val ++
      u8 e.binding ++ u8 e.size ++ u8 e.volume ++ u8 e.releaseCount ++ optBytes 1 (e.former.map (·.val)) ++
      u8 e.forwardCount ++ flagByte (decide (i ∈ (s.rooms[e.room]).urgent))

def takeRosterRead (first count : Nat) (place : Nat) (s : State) : State :=
  if 511 < first ∨ count = 0 ∨ 128 < count ∨ 512 < first + count then s.refuse place .badArg 0
  else s.done place (u8 count ++ ((allEntries.drop first).take count).flatMap s.entryReport)

/-! ### Producing directives (R154, R155) -/

/-- Actions of a directive (R191): 1 TUNE, 2 FORWARD, 3 RETURN. -/
def directive (e : RosterEntry) (action channel : Nat) : List Byte :=
  u32 e.receiver ++ u8 action ++ u8 e.binding ++ u8 channel ++ u8 (e.size * 16 + e.volume)

/-- Eight bytes of 00h. -/
def emptyDirective : List Byte := List.replicate 8 0#8

/-- The effect of a RETURN in the entry's own room: the release count falls, and the entry is freed at 0. -/
def State.spendRelease (s : State) (i : RosterIx) (e : RosterEntry) : State :=
  if e.releaseCount ≤ 1 then s.freeEntry i
  else s.modEntry i (fun e => { e with releaseCount := e.releaseCount - 1 })

/-- The effect of a directive in the former room: the forward count falls; above 0 the entry joins the urgent queue
again, at 0 the former room becomes absent. -/
def State.spendForward (s : State) (r : RoomNo) (i : RosterIx) (e : RosterEntry) : State :=
  if e.forwardCount ≤ 1 then s.modEntry i (fun e => { e with former := none, forwardCount := 0 })
  else (s.modEntry i (fun e => { e with forwardCount := e.forwardCount - 1 })).modRoom r (fun room => room.joinUrgent i)

/-- The directive made for an entry by a producing room, with its effect (R155). -/
def State.makeDirective (s : State) (r : RoomNo) (i : RosterIx) : State × List Byte :=
  match s.roster[i] with
  | none => (s, emptyDirective)
  | some e =>
    let own := (s.clock r).channel
    match decide (e.room = r), e.releasing with
    | true, false => (s, directive e 1 own)
    | true, true => (s.spendRelease i e, directive e 3 own)
    | false, false => (s.spendForward r i e, directive e 2 (s.clock e.room).channel)
    | false, true => (s.spendForward r i e, directive e 3 own)

/-- One directive position (R154): the urgent queue, else the rota, else an empty directive. -/
def State.produceDirective (s : State) (r : RoomNo) : State × List Byte :=
  match (s.rooms[r]).urgent, (s.rooms[r]).cursor with
  | i :: rest, _ => (s.modRoom r (fun room => { room with urgent := rest })).makeDirective r i
  | [], some i =>
    (s.modRoom r (fun room => { room with cursor := nextAfter room.rota room.rota i })).makeDirective r i
  | [], none => (s, emptyDirective)

/-! ### The meanings -/

def execAssign (tag : Byte) (receiver room binding size volume : Nat) (s : State) :
    Host.Outcome State Fault Refusal :=
  .next (s.command 0x40 tag (takeAssign receiver room binding size volume))

def execRelease (tag : Byte) (receiver : Nat) (s : State) : Host.Outcome State Fault Refusal :=
  .next (s.command 0x41 tag (takeRelease receiver))

def execRosterRead (tag : Byte) (first count : Nat) (s : State) : Host.Outcome State Fault Refusal :=
  .next (s.command 0x42 tag (takeRosterRead first count))

end Sys2Proof.Machine
end

