-- ==== Sys2Proof/Machine/Rooms.lean ====
section
/-! DEFINITION. The commands of the show clock (chapter 3) and the events of its timer and chain. -/

namespace Sys2Proof.Machine

open Sys2Proof

/-! ### ROOM_SETUP (R54) -/

/-- A setup as the command names it. -/
structure Setup where
  mode     : Nat
  rate     : Nat
  p        : Nat
  frame    : Nat
  run      : Nat
  emit     : Nat
  tally    : Nat
  channel  : Nat
  carousel : Nat
deriving DecidableEq, Repr

/-- A line field out of range, or naming a line that an earlier field of the setup names. -/
def badLine (earlier : List Nat) (v : Nat) : Bool :=
  (lineField? v).isNone || (!decide (v = 0xFF) && decide (v ∈ earlier))

/-- The fields judged, with their positions in the body (R188): the room is field 1 and P field 4. -/
def Setup.fields (x : Setup) : List (Nat × Bool) :=
  [(2, decide (1 < x.mode)), (3, decide (x.rate < 20) || decide (120 < x.rate)),
   (5, badLine [] x.frame), (6, badLine [x.frame] x.run), (7, badLine [x.frame, x.run] x.emit),
   (8, badLine [x.frame, x.run, x.emit] x.tally),
   (9, decide (x.channel = 0) || decide (32 < x.channel)),
   (10, decide (x.carousel < 10) || decide (250 < x.carousel))]

/-- R54 step 3: the position of the first field out of range. -/
def Setup.badField? (x : Setup) : Option Nat := (x.fields.find? (fun f => f.2)).map (·.1)

/-- The nominal divider of an INTERNAL setup, none where R54 step 4 refuses it. -/
def Setup.nominal? (x : Setup) : Option Nat :=
  let d := 96000 / (x.rate * x.p)
  if 2 ≤ x.p ∧ x.p ≤ 65535 ∧ 96000 % (x.rate * x.p) = 0 ∧ 2 ≤ d ∧ d ≤ 65535 then some d else none

/-- A line field as a claim. -/
def lineOfField (v : Nat) : Option LineNo := (lineField? v).getD none

/-- The setup replaced as a whole (R54). -/
def Clock.setUp (c : Clock) (x : Setup) : Clock :=
  let d := if x.mode = 1 then x.nominal? else none
  { c with
    mode := if x.mode = 1 then .internal else .external
    rate := x.rate
    p := if x.mode = 1 then some x.p else none
    nominal := d
    current := d
    pendingDiv := none
    frameLine := lineOfField x.frame
    runLine := lineOfField x.run
    emitLine := lineOfField x.emit
    tallyLine := lineOfField x.tally
    channel := x.channel
    carousel := x.carousel }

/-- Another room whose setup has a channel. -/
def State.channelUser? (s : State) (r : RoomNo) (channel : Nat) : Option RoomNo :=
  allRooms.find? (fun q => !decide (q = r) && decide ((s.clock q).channel = channel))

def takeRoomSetup (room : Nat) (x : Setup) (place : Nat) (s : State) : State :=
  s.withRoom place room (fun r =>
    if (s.clock r).show_ ≠ .dark then s.refuse place .badState 0
    else match x.badField? with
      | some position => s.refuse place .badArg position
      | none =>
        if x.mode = 1 ∧ x.nominal?.isNone then s.refuse place .badArg 0
        else match s.channelUser? r x.channel with
          | some q => s.refuse place .inUse q.val
          | none =>
            let s1 := s.modClock r (fun c => c.setUp x)
            s1.done place (optBytes 2 (s1.clock r).nominal))

/-! ### ROOM_STATUS (R71) -/

/-- One binding in the reply: its state and its track ID, 0 for LIVE and for none. -/
def Binding.report (b : Binding) : List Byte := u8 b.state.code ++ u16 b.track.reported

/-- The room as ROOM_STATUS reports it. The end position has a presence byte, and so has each of sync mode, declared rate, P
and the dividers, though a room always has the first two (R71, R188; log 14). -/
def State.roomReport (s : State) (r : RoomNo) : List Byte :=
  let c := s.clock r
  u8 c.show_.code ++ u24 c.pos ++ optBytes 3 c.endPos ++ u8 c.holds.code ++
    optBytes 1 (some c.mode.code) ++ optBytes 1 (some c.rate) ++ optBytes 2 c.p ++ optBytes 2 c.nominal ++
    optBytes 2 c.current ++ optBytes 2 c.pendingDiv ++
    flagByte (s.runLevel r) ++ flagByte c.syncTimer.isSome ++
    lineByte c.frameLine ++ lineByte c.runLine ++ lineByte c.emitLine ++ lineByte c.tallyLine ++
    u8 c.channel ++ u8 c.carousel ++
    (s.rooms[r]).bindings.toList.flatMap Binding.report ++ flagByte (s.rooms[r]).comp.pendingMap.isSome

def takeRoomStatus (room : Nat) (place : Nat) (s : State) : State :=
  s.withRoom place room (fun r => s.done place (s.roomReport r))

/-! ### ARM (R58) -/

/-- R131: the composer of a room that leaves DARK. The first boundary falls at the next base tick. -/
def Composer.start (c : Composer) : Composer := { c with counter := 0, rotation := 0, roundTimer := some 1 }

/-- The clock of an armed room. -/
def Clock.arm (c : Clock) (pos : Nat) (endPos : Option Nat) : Clock :=
  { c.toStill .armed with pos := pos, endPos := endPos, current := c.nominal, pendingDiv := none }

/-- A room leaves DARK: its claims join their lines and its rounds start. -/
def State.leaveDark (before s : State) (r : RoomNo) : State := (before.joinLines s r).modComp r Composer.start

/-- Every bound binding of a room is repositioned (R114), and the part goes on with what that brings. -/
def State.repositionRoom (s : State) (r : RoomNo) (pos : Nat) : State :=
  ((s.runBindings r (repositionBound pos)).refreshTally r).arbitrateBoth

/-- An accepted ARM. -/
def State.armRoom (s : State) (r : RoomNo) (pos : Nat) (endPos : Option Nat) : State :=
  let s1 := s.enterShow r (fun c => c.arm pos endPos)
  (if (s.clock r).show_ = .dark then s.leaveDark s1 r else s1).repositionRoom r pos

/-- The optional end position of an ARM, none where R58 step 1 refuses the position or the end. With presence byte 00h the
end position field is not looked at, whatever it holds (log 33). -/
def armEnd? (pos endFlag endPos : Nat) : Option (Option Nat) :=
  if Config.maxPosition ≤ pos ∨ 1 < endFlag then none
  else if endFlag = 0 then some none
  else if pos < endPos ∧ endPos ≤ Config.maxPosition then some (some endPos)
  else none

def takeArm (room pos endFlag endPos : Nat) (place : Nat) (s : State) : State :=
  s.withRoom place room (fun r =>
    match armEnd? pos endFlag endPos with
    | none => s.refuse place .badArg 0
    | some e =>
      if ((s.clock r).show_ ≠ .dark ∧ (s.clock r).show_ ≠ .ended) ∨ !(s.rooms[r]).bindings.any Binding.bound then
        s.refuse place .badState 0
      else (s.armRoom r pos e).done place [])

/-! ### GO, HOLD, RESUME, RETRIM (R64 to R66) -/

def Clock.go (c : Clock) : Clock :=
  { c.toRunning with current := c.nominal, chain := .running (c.p.getD 0) (c.nominal.getD 0) }

def takeGo (room : Nat) (place : Nat) (s : State) : State :=
  s.withRoom place room (fun r =>
    if (s.clock r).mode = .external ∨ (s.clock r).show_ ≠ .armed then s.refuse place .badState 0
    else ((s.enterShow r Clock.go).refreshTally r).done place [])

/-- RUNNING or HELD. -/
def Clock.started (c : Clock) : Bool := decide (c.show_ = .running) || decide (c.show_ = .held)

def takeHold (room : Nat) (place : Nat) (s : State) : State :=
  s.withRoom place room (fun r =>
    if (s.clock r).started then (s.addCause r (fun h => { h with host := true })).done place []
    else s.refuse place .badState 0)

def takeResume (room : Nat) (place : Nat) (s : State) : State :=
  s.withRoom place room (fun r =>
    if (s.clock r).started then
      let s1 := s.dropCause r (fun h => { h with host := false })
      s1.done place (u8 (s1.clock r).holds.code)
    else s.refuse place .badState 0)

/-- R65 step 3. -/
def Clock.retrims (c : Clock) (v : Nat) : Bool :=
  let d := c.nominal.getD 0
  decide (2 ≤ v) && decide (v ≤ 65535) && decide (98 * d ≤ 100 * v) && decide (100 * v ≤ 102 * d)

def takeRetrim (room divider : Nat) (place : Nat) (s : State) : State :=
  s.withRoom place room (fun r =>
    if (s.clock r).mode = .external ∨ !(s.clock r).started then s.refuse place .badState 0
    else if (s.clock r).retrims divider then
      (s.modClock r (fun c => { c with pendingDiv := some divider })).done place []
    else s.refuse place .badArg 0)

/-! ### SEEK and END (R67, R68) -/

/-- R67 step 1, for a room's end position. -/
def Clock.seekBeyond (c : Clock) (pos : Nat) : Bool :=
  decide (Config.maxPosition ≤ pos) || (match c.endPos with | some e => decide (e ≤ pos) | none => false)

/-- An accepted SEEK: an ENDED room becomes ARMED. -/
def State.seekRoom (s : State) (r : RoomNo) (pos : Nat) : State :=
  let s1 := s.modClock r (fun c => { c with pos := pos })
  (if (s.clock r).show_ = .ended then s1.enterShow r (fun c => c.toStill .armed) else s1).repositionRoom r pos

def takeSeek (room pos : Nat) (place : Nat) (s : State) : State :=
  s.withRoom place room (fun r =>
    if (s.clock r).seekBeyond pos then s.refuse place .badArg 0
    else if (s.clock r).show_ = .dark then s.refuse place .badState 0
    else (s.seekRoom r pos).done place [])

def takeEndShow (room : Nat) (place : Nat) (s : State) : State :=
  s.withRoom place room (fun r =>
    if (s.clock r).show_ = .dark ∨ (s.clock r).show_ = .ended then s.refuse place .badState 0
    else (s.enterEnded r).done place [])

/-! ### ROOM_DARK and ROOM_RESET (R69, R70) -/

/-- R131: the composer of a room that enters DARK by ROOM_DARK. -/
def Composer.stop (c : Composer) : Composer :=
  { c with roundTimer := none, tx := none, active := c.pendingMap.getD c.active, pendingMap := none }

/-- R130: the composer at ROOM_RESET. -/
def Composer.reset (c : Composer) : Composer :=
  { c with roundTimer := none, tx := none, active := SlotMap.default, pendingMap := none }

/-- An accepted ROOM_DARK. -/
def State.darken (s : State) (r : RoomNo) : State :=
  let s1 := s.enterShow r (fun c => c.toStill .dark)
  let s2 := ((s1.mapBindings r Binding.enterDark).modComp r Composer.stop).closePath r
  s.leaveLines s2 r

def takeRoomDark (room : Nat) (place : Nat) (s : State) : State :=
  s.withRoom place room (fun r =>
    if (s.clock r).show_ = .armed ∨ (s.clock r).show_ = .ended then (s.darken r).done place []
    else s.refuse place .badState 0)

/-- The bind count of a named track falls by one. -/
def State.dropBind (s : State) (track : TrackRef) : State :=
  match track with
  | .stored id => s.modTrack id (fun t => { t with bindCount := t.bindCount - 1 })
  | _ => s

/-- The clock at ROOM_RESET (R70). -/
def Clock.reset (c : Clock) : Clock :=
  { c.toStill .dark with current := c.nominal, pendingDiv := none, endPos := none }

/-- The room's own parts at ROOM_RESET (R70, R105). -/
def Room.reset (room : Room) : Room :=
  { room with
    clock := room.clock.reset
    bindings := room.bindings.map Binding.roomReset
    ring := []
    liveSerial := 1
    comp := room.comp.reset }

/-- ROOM_RESET; the clearing of the room's latches is the last effect (R186). -/
def State.resetRoom (s : State) (r : RoomNo) : State :=
  let s1 := ((s.rooms[r]).bindings.toList.foldl (fun s b => s.dropBind b.track) s).modRoom r Room.reset
  (s.leaveLines (s1.resetRoster r) r).clearRoomScope r

def takeRoomReset (room : Nat) (place : Nat) (s : State) : State :=
  s.withRoom place room (fun r => (s.resetRoom r).done place [])

/-! ### The meanings -/

def execRoomSetup (tag : Byte) (room mode rate p frame run emit tally channel carousel : Nat) (s : State) :
    Host.Outcome State Fault Refusal :=
  .next (s.command 0x10 tag (takeRoomSetup room ⟨mode, rate, p, frame, run, emit, tally, channel, carousel⟩))

def execRoomStatus (tag : Byte) (room : Nat) (s : State) : Host.Outcome State Fault Refusal :=
  .next (s.command 0x11 tag (takeRoomStatus room))

def execRoomReset (tag : Byte) (room : Nat) (s : State) : Host.Outcome State Fault Refusal :=
  .next (s.command 0x12 tag (takeRoomReset room))

def execRoomDark (tag : Byte) (room : Nat) (s : State) : Host.Outcome State Fault Refusal :=
  .next (s.command 0x13 tag (takeRoomDark room))

def execArm (tag : Byte) (room pos endFlag endPos : Nat) (s : State) : Host.Outcome State Fault Refusal :=
  .next (s.command 0x14 tag (takeArm room pos endFlag endPos))

def execGo (tag : Byte) (room : Nat) (s : State) : Host.Outcome State Fault Refusal :=
  .next (s.command 0x15 tag (takeGo room))

def execHold (tag : Byte) (room : Nat) (s : State) : Host.Outcome State Fault Refusal :=
  .next (s.command 0x16 tag (takeHold room))

def execResume (tag : Byte) (room : Nat) (s : State) : Host.Outcome State Fault Refusal :=
  .next (s.command 0x17 tag (takeResume room))

def execSeek (tag : Byte) (room pos : Nat) (s : State) : Host.Outcome State Fault Refusal :=
  .next (s.command 0x18 tag (takeSeek room pos))

def execRetrim (tag : Byte) (room divider : Nat) (s : State) : Host.Outcome State Fault Refusal :=
  .next (s.command 0x19 tag (takeRetrim room divider))

/-- END (R68). -/
def execEndShow (tag : Byte) (room : Nat) (s : State) : Host.Outcome State Fault Refusal :=
  .next (s.command 0x1A tag (takeEndShow room))

/-- SYNC_HOLD_EXPIRY (R62): an event of a RUNNING EXTERNAL room with its timer armed (log 3, log 4). -/
def execSyncHoldExpiry (room : RoomNo) (s : State) : Host.Outcome State Fault Refusal :=
  .next (s.ifPowered (fun s =>
    if (s.clock room).show_ = .running ∧ (s.clock room).syncTimer.isSome then s.syncExpiry room else s))

/-- PRESCALER_EXPIRY (R63): an event of a running chain (log 3, log 4). -/
def execPrescalerExpiry (room : RoomNo) (s : State) : Host.Outcome State Fault Refusal :=
  .next (s.ifPowered (fun s =>
    match (s.clock room).chain with
    | .running _ div => s.prescalerExpiry room div
    | _ => s))

/-- DIVIDER_EXPIRY (R63): an event of a running chain (log 3, log 4). -/
def execDividerExpiry (room : RoomNo) (s : State) : Host.Outcome State Fault Refusal :=
  .next (s.ifPowered (fun s =>
    match (s.clock room).chain with
    | .running _ _ => s.dividerExpiry room
    | _ => s))

end Sys2Proof.Machine
end

