-- ==== Sys2Proof/Machine/Bindings.lean ====
section
/-! DEFINITION. SLOT_MAP (R137, R138), BIND and UNBIND (R75 to R77) and LIVE_TEXT (R106). -/

namespace Sys2Proof.Machine

open Sys2Proof

/-! ### Slot needs (R75, R137) -/

/-- The slots whose even carrier is a binding. -/
def evenSlots (map : SlotMap) (i : BindNo) : Nat := map.countP (fun e => decide (e.even = .binding i))

/-- The slots whose odd carrier is a binding. -/
def oddSlots (map : SlotMap) (i : BindNo) : Nat := map.countP (fun e => decide (e.odd = .binding i))

/-- A VOICE binding needs two slots in each parity, a TEXT or LIVE binding one in the two together. -/
def mapServes (map : SlotMap) (kind : BKind) (i : BindNo) : Bool :=
  match kind with
  | .voice => decide (2 ≤ evenSlots map i) && decide (2 ≤ oddSlots map i)
  | .text | .live => decide (1 ≤ evenSlots map i + oddSlots map i)

/-- The needs of a binding as it stands: none when UNBOUND, one slot when UNBINDING, by kind when bound. -/
def Binding.served (b : Binding) (map : SlotMap) (i : BindNo) : Bool :=
  match b.state with
  | .unbound => true
  | .unbinding => mapServes map .text i
  | _ => match b.kind with
    | none => true
    | some kind => mapServes map kind i

/-! ### SLOT_MAP (R137, R138) -/

/-- A map entry of its carrier codes. -/
def slotEntry? (e : Nat × Nat) : Option SlotEntry :=
  match Carrier.ofCode? e.1, Carrier.ofCode? e.2 with
  | some even, some odd => some ⟨even, odd⟩
  | _, _ => none

/-- The number of the first slot whose entry is out of range. -/
def badSlot? (entries : List (Nat × Nat)) : Option Nat :=
  (entries.findIdx? (fun e => (slotEntry? e).isNone)).map (· + 1)

/-- The map that 39 entries in range give. -/
def mapOf (entries : List (Nat × Nat)) : SlotMap :=
  Vector.ofFn (fun i => ((entries[i.val]?).bind slotEntry?).getD (SlotEntry.both .empty))

/-- The lowest binding of a room that a map gives too few slots. -/
def State.shortBinding? (s : State) (r : RoomNo) (map : SlotMap) : Option BindNo :=
  allBindings.find? (fun i => !((s.binding r i).served map i))

/-- The map taken: at once in a DARK room, otherwise as the pending map (R138). -/
def State.setMap (s : State) (r : RoomNo) (map : SlotMap) : State :=
  if (s.clock r).show_ = .dark then
    (s.modComp r (fun c => { c with active := map, pendingMap := none })).reportMap r
  else s.modComp r (fun c => { c with pendingMap := some map })

/-- A body of the wrong length is the link's to refuse (R172); the range of the carriers is judged with the room
number (log 29). -/
def takeSlotMap (room : Nat) (entries : List (Nat × Nat)) (place : Nat) (s : State) : State :=
  if entries.length ≠ 39 then s.refuse place .badLength (1 + 2 * entries.length)
  else match badSlot? entries with
    | some slot => s.refuse place .badArg slot
    | none => s.withRoom place room (fun r =>
      match s.shortBinding? r (mapOf entries) with
      | some i => s.refuse place .inUse i.val
      | none =>
        (s.setMap r (mapOf entries)).done place (flagByte (!decide ((s.clock r).show_ = .dark))))

/-! ### BIND (R75, R76) -/

/-- What a BIND names, once the track is found: the track, its kind, language and bank. -/
structure BindTarget where
  track : TrackRef
  kind  : BKind
  lang  : Lang
  bank  : BankNo
deriving DecidableEq, Repr

/-- R75 steps 3 and 4, for a stored track. -/
def State.bindTarget (s : State) (trackId : Nat) : Except Reason BindTarget :=
  match s.track? trackId with
  | none => .error .notFound
  | some t =>
    if t.state = .sealed then
      .ok ⟨.stored trackId, (match t.kind with | .text => .text | .voice => .voice), t.lang, t.bank⟩
    else .error .badState

/-- R75 steps 5 to 7: the refusal, with its detail. Where the active and the pending map are both short, the active
one's detail, 2, is reported (the model's choice, log 36). -/
def State.bindRefusal? (s : State) (r : RoomNo) (i : BindNo) (kind : BKind) : Option (Reason × Nat) :=
  if (s.binding r i).state = .unbinding then some (.busy, 0)
  else if (s.binding r i).bound then some (.inUse, 1)
  else if !mapServes (s.rooms[r]).comp.active kind i then some (.inUse, 2)
  else match (s.rooms[r]).comp.pendingMap with
    | none => none
    | some map => if mapServes map kind i then none else some (.inUse, 3)

/-- R76: the fields of a bound binding. -/
def Binding.bindTo (b : Binding) (t : BindTarget) : Binding :=
  { b with state := .playing, track := t.track, kind := some t.kind, lang := some t.lang, bank := t.bank }

/-- ARMED, RUNNING or HELD. -/
def Clock.inService (c : Clock) : Bool := decide (c.show_ = .armed) || c.started

/-- An accepted BIND. -/
def State.bindTo (s : State) (r : RoomNo) (i : BindNo) (t : BindTarget) : State :=
  let s1 := s.modBinding r i (fun b => b.bindTo t)
  let s2 := match t.track with
    | .stored id => s1.modTrack id (fun t => { t with bindCount := t.bindCount + 1 })
    | _ => s1
  let s3 := if (s.clock r).inService then s2.runBinding r i (reposition (s.clock r).pos) else s2
  (s3.refreshTally r).arbitrateBoth

/-- R75 from step 5, and R76. -/
def State.bindOrRefuse (s : State) (place : Nat) (r : RoomNo) (i : BindNo) (t : BindTarget) : State :=
  match s.bindRefusal? r i t.kind with
  | some (reason, detail) => s.refuse place reason detail
  | none =>
    let s1 := s.bindTo r i t
    s1.done place [(s1.binding r i).gen]

/-- R75: track ID 0 is LIVE (R188). R76 gives the bank field of a LIVE binding no value, since it names no track: the
field keeps what it held (log 5). -/
def takeBind (room binding trackId : Nat) (lang : Lang) (place : Nat) (s : State) : State :=
  s.withRoom place room (fun r =>
    if h : binding < 4 then
      let i : BindNo := ⟨binding, h⟩
      if trackId = 0 ∧ !Lang.valid lang then s.refuse place .badArg 0
      else if s.mounting then s.refuse place .mounting 0
      else if trackId = 0 then s.bindOrRefuse place r i ⟨.live, .live, lang, (s.binding r i).bank⟩
      else match s.bindTarget trackId with
        | .error reason => s.refuse place reason 0
        | .ok t => s.bindOrRefuse place r i t
    else s.refuse place .badArg 0)

/-! ### UNBIND (R77) -/

/-- An accepted UNBIND: the binding leaves, the track's bind count falls, and the ring loses the binding's entries
(R105). -/
def State.unbindAt (s : State) (r : RoomNo) (i : BindNo) : State :=
  let dark : Bool := decide ((s.clock r).show_ = .dark)
  let s1 := (s.dropBind (s.binding r i).track).modBinding r i (fun b => b.unbind dark)
  (s1.modRoom r (fun room => { room with ring := room.ring.filter (fun e => !decide (e.binding = i)) })).refreshTally r

def takeUnbind (room binding : Nat) (place : Nat) (s : State) : State :=
  s.withRoom place room (fun r =>
    if h : binding < 4 then
      if (s.binding r ⟨binding, h⟩).bound then (s.unbindAt r ⟨binding, h⟩).done place []
      else s.refuse place .badState 0
    else s.refuse place .badArg 0)

/-! ### LIVE_TEXT (R106) -/

/-- An accepted LIVE_TEXT: an entry with the next serial joins the ring. -/
def Room.pushLive (room : Room) (i : BindNo) (text : List Byte) (hold : Nat) (notify : Bool) : Room :=
  { room with
    ring := room.ring ++ [⟨i, room.liveSerial, text, hold, notify⟩]
    liveSerial := serialAfter room.liveSerial }

/-- The binding is bound LIVE. -/
def Binding.boundLive (b : Binding) : Bool := decide (b.track = .live) && b.bound

def takeLiveText (room binding hold notify : Nat) (text : List Byte) (place : Nat) (s : State) : State :=
  s.withRoom place room (fun r =>
    if h : binding < 4 then
      let i : BindNo := ⟨binding, h⟩
      if text.length = 0 ∨ 244 < text.length ∨ hold = 0 ∨ 3000 < hold ∨ 1 < notify then s.refuse place .badArg 0
      else if !(s.binding r i).boundLive then s.refuse place .badState 0
      else if Config.ringPlaces ≤ (s.rooms[r]).ring.length then s.refuse place .busy 0
      else
        let s1 := s.modRoom r (fun room => room.pushLive i text hold (decide (notify = 1)))
        s1.done place (u16 (s.rooms[r]).liveSerial ++ u8 (s1.rooms[r]).ring.length)
    else s.refuse place .badArg 0)

/-! ### The meanings -/

def execSlotMap (tag : Byte) (room : Nat) (entries : List (Nat × Nat)) (s : State) :
    Host.Outcome State Fault Refusal :=
  .next (s.command 0x20 tag (takeSlotMap room entries))

/-- BIND (R75). -/
def execBindTrack (tag : Byte) (room binding trackId : Nat) (lang : Lang) (s : State) :
    Host.Outcome State Fault Refusal :=
  .next (s.command 0x28 tag (takeBind room binding trackId lang))

def execUnbind (tag : Byte) (room binding : Nat) (s : State) : Host.Outcome State Fault Refusal :=
  .next (s.command 0x29 tag (takeUnbind room binding))

def execLiveText (tag : Byte) (room binding hold notify : Nat) (text : List Byte) (s : State) :
    Host.Outcome State Fault Refusal :=
  .next (s.command 0x2A tag (takeLiveText room binding hold notify text))

end Sys2Proof.Machine
end

