-- ==== Sys2Proof/Machine/Signals.lean ====
section
/-! DEFINITION. The line commands LINE_SET and LINE_READ (R160, R166) and what happens at the pins: frame pulses,
run-line changes and changes of other pins (R59 to R61, R164). -/

namespace Sys2Proof.Machine

open Sys2Proof

/-- R188's codes of the pulls. -/
def pullOf? (code : Nat) : Option Pull :=
  if code = 0 then some .none else if code = 1 then some .up else if code = 2 then some .down else none

/-- R160: the plain setting is replaced whole; it applies where the line has no holder, and its pull where the holder
is an input claim. -/
def takeLineSet (line direction level pull : Nat) (place : Nat) (s : State) : State :=
  if h : line < 48 then
    match pullOf? pull with
    | none => s.refuse place .badArg 0
    | some p =>
      if 1 < direction ∨ 1 < level then s.refuse place .badArg 0
      else
        let l : LineNo := ⟨line, h⟩
        let s1 := s.modLine l (fun g =>
          { g with dirOut := decide (direction = 1), level := decide (level = 1), pull := p })
        (s.settle s1 [l]).done place (holderBytes (s1.holder l))
  else s.refuse place .badArg 0

/-- R166. -/
def takeLineRead (place : Nat) (s : State) : State := s.done place s.linesReport

/-- A frame pulse: the pin of the room's frame line, low before it, rises while its FRAME_IN claim holds the line. A pin
that stood high has gone low first, which nobody sees. Without that claim the room sees no pulse (R59; log 3). -/
def State.framePulse (s : State) (r : RoomNo) : State :=
  match (s.clock r).frameLine with
  | none => s
  | some l =>
    if s.holdsFrame r then
      (s.modLine l (fun g => { g with outside := some false, pin := false })).driveFrom l (some true)
    else s

/-- The effective run level of a room changes at the pin of its run line, which its RUN_IN claim holds (R59, R61).
Without that claim, and at the level the pin already has, there is no such change (log 3). -/
def State.runLineChange (s : State) (r : RoomNo) (level : Bool) : State :=
  match (s.clock r).runLine with
  | none => s
  | some l =>
    if s.holder l = some (.runIn, r) ∧ (s.lines[l]).pin ≠ level then s.driveFrom l (some level) else s

/-! ### The meanings -/

def execLineSet (tag : Byte) (line direction level pull : Nat) (s : State) : Host.Outcome State Fault Refusal :=
  .next (s.command 0x08 tag (takeLineSet line direction level pull))

def execLineRead (tag : Byte) (s : State) : Host.Outcome State Fault Refusal :=
  .next (s.command 0x09 tag takeLineRead)

/-- FRAME_PULSE (R60). -/
def execFramePulse (room : RoomNo) (s : State) : Host.Outcome State Fault Refusal :=
  .next (s.ifPowered (fun s => s.framePulse room))

/-- RUN_LINE_CHANGE (R61). -/
def execRunLineChange (room : RoomNo) (level : Bool) (s : State) : Host.Outcome State Fault Refusal :=
  .next (s.ifPowered (fun s => s.runLineChange room level))

/-- PIN_LEVEL_CHANGE (R164): what drives a pin from outside becomes `drive`, nothing where it is absent. A part without
power sees nothing of it, but the pin is driven when power returns. -/
def execPinLevelChange (line : LineNo) (drive : Option Bool) (s : State) : Host.Outcome State Fault Refusal :=
  .next (if s.powered then s.driveFrom line drive else s.modLine line (fun g => { g with outside := drive }))

end Sys2Proof.Machine
end

