-- ==== Sys2Proof/Machine/Receiver.lean ====
section
/-! DEFINITION. The receiver (R169, R170), the dispatch of a frame to its owner (R172), and the transmitter (R175,
R177). -/

namespace Sys2Proof.Machine

open Sys2Proof

/-! ### Dispatch (R172, R189) -/

/-- A body of fixed length `n` goes to its owner; any other is refused BAD_LENGTH with the body length as detail. -/
def fitting (n : Nat) (body : List Byte) (own : Nat → State → State) (place : Nat) (s : State) : State :=
  if body.length = n then own place s else s.refuse place .badLength body.length

/-- LIVE_TEXT declares its text length in byte 5. -/
def dispatchLiveText (body : List Byte) (place : Nat) (s : State) : State :=
  if 6 ≤ body.length ∧ body.length = 6 + field body 5 1 then
    takeLiveText (field body 0 1) (field body 1 1) (field body 2 2) (field body 4 1) (body.drop 6) place s
  else s.refuse place .badLength body.length

/-- TRACK_WRITE's data run to the end of the body; its owner refuses no data and more than 2048 bytes. -/
def dispatchTrackWrite (body : List Byte) (place : Nat) (s : State) : State :=
  if 6 ≤ body.length then takeTrackWrite (field body 0 2) (field body 2 4) (body.drop 6) place s
  else s.refuse place .badLength body.length

/-- TRACK_MOVE declares its patch count and each patch's length. -/
def dispatchTrackMove (body : List Byte) (place : Nat) (s : State) : State :=
  if 3 ≤ body.length then
    match patchesOf (field body 2 1) (body.drop 3) with
    | some patches => takeTrackMove (field body 0 2) patches place s
    | none => s.refuse place .badLength body.length
  else s.refuse place .badLength body.length

/-- The commands of one room. -/
def dispatchRoom (own : Nat → Nat → State → State) (body : List Byte) : Nat → State → State :=
  fitting 1 body (own (field body 0 1))

/-- An open command of a type is judged by the link and handed to its owner (R172); a type that names no command is
refused UNKNOWN_TYPE with the type as detail. -/
def dispatch (type : Nat) (body : List Byte) : Nat → State → State :=
  match type with
  | 0x01 => fitting 0 body takeIdent
  | 0x02 => fitting 0 body takeSoftReset
  | 0x03 => fitting 3 body (takeNoticeSet (field body 0 1) (BitVec.ofNat 16 (field body 1 2)))
  | 0x04 => fitting 1 body (takeEventsRead (field body 0 1))
  | 0x05 => fitting 3 body (takeEventsClear (field body 0 1) (BitVec.ofNat 16 (field body 1 2)))
  | 0x08 => fitting 4 body (takeLineSet (field body 0 1) (field body 1 1) (field body 2 1) (field body 3 1))
  | 0x09 => fitting 0 body takeLineRead
  | 0x10 => fitting 11 body (takeRoomSetup (field body 0 1)
      ⟨field body 1 1, field body 2 1, field body 3 2, field body 5 1, field body 6 1, field body 7 1, field body 8 1,
        field body 9 1, field body 10 1⟩)
  | 0x11 => dispatchRoom takeRoomStatus body
  | 0x12 => dispatchRoom takeRoomReset body
  | 0x13 => dispatchRoom takeRoomDark body
  | 0x14 => fitting 8 body (takeArm (field body 0 1) (field body 1 3) (field body 4 1) (field body 5 3))
  | 0x15 => dispatchRoom takeGo body
  | 0x16 => dispatchRoom takeHold body
  | 0x17 => dispatchRoom takeResume body
  | 0x18 => fitting 4 body (takeSeek (field body 0 1) (field body 1 3))
  | 0x19 => fitting 3 body (takeRetrim (field body 0 1) (field body 1 2))
  | 0x1A => dispatchRoom takeEndShow body
  | 0x20 => fitting 79 body (takeSlotMap (field body 0 1) (pairsOf (body.drop 1)))
  | 0x28 => fitting 7 body (takeBind (field body 0 1) (field body 1 1) (field body 2 2) (langAt body 4))
  | 0x29 => fitting 2 body (takeUnbind (field body 0 1) (field body 1 1))
  | 0x2A => dispatchLiveText body
  | 0x30 => fitting 7 body (takeTrackCreate (field body 0 2) (field body 2 1) (langAt body 3) (field body 6 1))
  | 0x31 => dispatchTrackWrite body
  | 0x32 => fitting 6 body (takeTrackSeal (field body 0 2) (field body 2 4))
  | 0x33 => dispatchTrackMove body
  | 0x34 => fitting 2 body (takeTrackDelete (field body 0 2))
  | 0x35 => fitting 2 body (takeTrackInfo (field body 0 2))
  | 0x36 => fitting 0 body takeStoreInfo
  | 0x40 => fitting 8 body (takeAssign (field body 0 4) (field body 4 1) (field body 5 1) (field body 6 1) (field body 7 1))
  | 0x41 => fitting 4 body (takeRelease (field body 0 4))
  | 0x42 => fitting 3 body (takeRosterRead (field body 0 2) (field body 2 1))
  | code => fun place s => s.refuse place .unknownType code

/-- An intact frame completes (R171). -/
def State.intactFrame (s : State) (type : Nat) (tag : Byte) (body : List Byte) : State :=
  s.takeCommand type tag (dispatch type body)

/-! ### The receiver (R169, R170) -/

/-- A frame is abandoned (R170). -/
def State.abandon (s : State) : State :=
  (s.modLink (fun l => { l with receiver := .hunt, gap := none })).raiseDevice .linkError

/-- Bytes collected, with the gap timer loaded. -/
def State.collect (s : State) (bytes : List Byte) : State :=
  s.modLink (fun l => { l with receiver := .framing bytes, gap := some Config.gapTicks })

/-- The start byte of a frame (R168). -/
def startByte : Byte := 0xC5#8

/-- The check carried at the end of a complete frame matches the one over length, type, tag and body (R168). -/
def checkMatches (bytes : List Byte) : Bool :=
  decide ((crc ((bytes.drop 1).dropLast.dropLast)).toNat = field bytes (bytes.length - 2) 2)

/-- A complete frame: intact, it goes to the inbound queue; otherwise it is abandoned. -/
def State.frameComplete (s : State) (bytes : List Byte) : State :=
  if checkMatches bytes then
    (s.modLink (fun l => { l with receiver := .hunt, gap := none })).intactFrame (field bytes 3 1)
      ((bytes[4]?).getD 0) ((bytes.drop 5).dropLast.dropLast)
  else s.abandon

/-- A byte without error collected in FRAMING (R169). -/
def State.framingByte (s : State) (bytes : List Byte) : State :=
  let length := field bytes 1 2
  if bytes.length < 3 then s.collect bytes
  else if bytes.length = 3 ∧ (length < 2 ∨ Config.largestBody + 2 < length) then s.abandon
  else if length + 5 ≤ bytes.length then s.frameComplete bytes
  else s.collect bytes

/-- A received byte (R169): `stopOk` is false for a byte error. -/
def State.linkByte (s : State) (b : Byte) (stopOk : Bool) : State :=
  match s.link.receiver with
  | .hunt => if stopOk ∧ b = startByte then s.collect [b] else s
  | .framing bytes => if stopOk then s.framingByte (bytes ++ [b]) else s.abandon

/-- The gap timer reaches 0 (R170). -/
def State.gapExpiry (s : State) : State :=
  match s.link.gap with
  | none => s
  | some _ => s.abandon

/-! ### The transmitter (R175, R177) -/

/-- The frame of an outbound message (R168, R189). -/
def OutMsg.frame (m : OutMsg) : List Byte :=
  let content : List Byte := match m with
    | .reply _ tag done body => u8 (if done then 0x80 else 0x81) ++ [tag] ++ body
    | .notice e count => u8 0x82 ++ [0#8] ++ u8 e.scopeCode ++ u8 e.classCode ++ u8 count
  let checked := u16 content.length ++ content
  startByte :: (checked ++ u16 (crc checked).toNat)

/-- The bits of the transmit line for one byte, in ten bit times: a start bit, low; eight data bits, the least significant
first; a stop bit, high (R167). -/
def lineBits (b : Byte) : List Bool := false :: ([0, 1, 2, 3, 4, 5, 6, 7].map b.getLsbD ++ [true])

/-- The bits of a message on the transmit line: the bytes of its frame with no idle time between them (R167). -/
def OutMsg.lineBits (m : OutMsg) : List Bool := m.frame.flatMap Machine.lineBits

/-- The bit times of the head message that have passed, at the rate in use (R167; log 25). -/
def Link.bitTimes (l : Link) : Nat := l.sendTicks * l.rate / Config.ticksPerSecond

/-- The level of the transmit line: high while the transmitter is idle; otherwise that of the bit being sent, and high
again once the head message's bits are out (R167, R175, R178). -/
def Link.transmitLine (l : Link) : Bool :=
  match l.outbound with
  | [] => true
  | m :: _ => (m.lineBits[l.bitTimes]?).getD true

/-- The head message has been sent for one more base tick. -/
def Link.tickSend (l : Link) : Link := if l.outbound.isEmpty then l else { l with sendTicks := l.sendTicks + 1 }

/-- The command of type SOFT_RESET holds a place. -/
def Link.softResetAt (l : Link) (place : Nat) : Bool :=
  l.inbound.any (fun c => decide (c.place = place) && decide (c.type = 0x02))

/-- R177: every block resets as for power-on; the rate, the arrays and the outside of the pins are kept. -/
def State.blockReset (s : State) : State := State.powerOnValues s.link.rate s.lines s.arrays s.pending

/-- The head message has left, and the next one, if any, starts. -/
def Link.headSent (l : Link) (rest : List OutMsg) : Link := { l with outbound := rest, sendTicks := 0 }

/-- A reply has left: its place is freed. -/
def Link.replySent (l : Link) (place : Nat) (rest : List OutMsg) : Link :=
  { l.headSent rest with inbound := l.inbound.filter (fun c => !decide (c.place = place)) }

/-- The last byte of the head message has left (R175). -/
def State.messageSent (s : State) : State :=
  match s.link.outbound with
  | [] => s
  | .reply place _ done _ :: rest =>
    if done ∧ s.link.softResetAt place then s.blockReset else s.modLink (fun l => l.replySent place rest)
  | .notice _ _ :: rest => (s.modLink (fun l => l.headSent rest)).serveOwed

/-! ### The meanings -/

/-- LINK_BYTE (R169). -/
def execLinkByte (b : Byte) (stopOk : Bool) (s : State) : Host.Outcome State Fault Refusal :=
  .next (s.ifPowered (fun s => s.linkByte b stopOk))

/-- GAP_TIMER_EXPIRY (R170): an event of an armed gap timer (log 3, log 4). -/
def execGapTimerExpiry (s : State) : Host.Outcome State Fault Refusal :=
  .next (s.ifPowered State.gapExpiry)

/-- INTACT_FRAME (R171). -/
def execIntactFrame (type : Nat) (tag : Byte) (body : List Byte) (s : State) : Host.Outcome State Fault Refusal :=
  .next (s.ifPowered (fun s => s.intactFrame type tag body))

/-- MESSAGE_SENT (R175): an event of a transmitter that is sending (log 3). -/
def execMessageSent (s : State) : Host.Outcome State Fault Refusal :=
  .next (s.ifPowered State.messageSent)

end Sys2Proof.Machine
end

