-- ==== Sys2Proof/Machine/Round.lean ====
section
/-! DEFINITION. The round boundary of a room (chapter 7): map, activation, composition, advance, transmission; and the
bytes of a round (R133 to R143, R191). -/

namespace Sys2Proof.Machine

open Sys2Proof

/-! ### The beacon (R134, R135) -/

/-- A slot header with both marks set and counter 0 (R139). -/
def plainSlotHeader (code : Nat) : List Byte := u8 code ++ [fragmentControl true true 0]

/-- The menu entry of a binding: binding, kind, language, state. -/
def menuEntry (i : Nat) (b : Binding) : List Byte :=
  u8 i ++ u8 (kindCode b.kind) ++ (match b.lang with | none => [0, 0, 0] | some l => Lang.bytes l) ++ u8 b.state.code

/-- Slot 0 of a round (R134): the beacon, its menu entry being that of the binding the rotation index names. -/
def beaconSlot (r : RoomNo) (room : Room) : List Byte :=
  plainSlotHeader 9 ++ u8 r.val ++ u8 room.clock.channel ++ u8 room.clock.show_.code ++ u24 room.clock.pos ++
    u16 room.comp.counter ++
    menuEntry room.comp.rotation (room.bindings.toList.getD room.comp.rotation Binding.initial) ++ [0xFF#8, 0xFF#8]

/-! ### Slots 1 to 39 (R139 to R143) -/

/-- The carrier of a map entry in a parity. -/
def SlotEntry.carrier (e : SlotEntry) (odd : Bool) : Carrier := if odd then e.odd else e.even

/-- A slot of a text or LIVE binding, or of an UNBOUND one (R140). -/
def State.fragmentSlot (s : State) (r : RoomNo) (i : BindNo) : State × List Byte :=
  let taken := takeFragment i ⟨s.binding r i, s.rooms[r].ring, [], []⟩
  (taken.1.evs.foldl (fun s c => s.raiseRoom r c) (s.modBinding r i (fun _ => taken.1.b)), taken.2)

/-- A slot of carrier binding `i`, `nth` slots of the binding going before it in the round (R140, R142). -/
def State.bindingSlot (s : State) (r : RoomNo) (i : BindNo) (nth : Nat) : State × List Byte :=
  if (s.binding r i).kind = some .voice then (s, voiceSlot i (s.binding r i) nth) else s.fragmentSlot r i

/-- A DIRECTIVES slot: two directives (R143). -/
def State.directiveSlot (s : State) (r : RoomNo) : State × List Byte :=
  let first := s.produceDirective r
  let second := first.1.produceDirective r
  (second.1, plainSlotHeader 8 ++ first.2 ++ second.2)

/-- The carriers of the slots already filled before this one that are a binding. -/
def slotsBefore (i : BindNo) (done : List Carrier) : Nat := done.countP (fun c => decide (c = .binding i))

/-- One slot filled by its carrier. -/
def State.fillSlotOf (s : State) (r : RoomNo) (done : List Carrier) : Carrier → State × List Byte
  | .empty => (s, fillSlot)
  | .binding i => s.bindingSlot r i (slotsBefore i done)
  | .directives => s.directiveSlot r

/-- Slots filled in ascending order. -/
def State.fillSlots (s : State) (r : RoomNo) (done : List Carrier) : List Carrier → State × List Byte
  | [] => (s, [])
  | c :: cs =>
    let first := s.fillSlotOf r done c
    let rest := first.1.fillSlots r (done ++ [c]) cs
    (rest.1, first.2 ++ rest.2)

/-! ### A round (R132, R133) -/

/-- The carriers of slots 1 to 39 in a parity. -/
def carriersOf (map : SlotMap) (odd : Bool) : List Carrier := map.toList.map (fun e => e.carrier odd)

/-- The sync pattern, the room and the parity (R191). -/
def roundHeader (r : RoomNo) (odd : Bool) : List Byte := [0x9D#8, 0x2A#8] ++ u8 r.val ++ flagByte odd

/-- The composition stage: the part after it, and the round's 726 bytes. -/
def State.compose (s : State) (r : RoomNo) : State × List Byte :=
  let comp := (s.rooms[r]).comp
  let odd : Bool := decide (comp.counter % 2 = 1)
  let slots := s.fillSlots r [] (carriersOf comp.active odd)
  let bytes := roundHeader r odd ++ beaconSlot r s.rooms[r] ++ slots.2
  (slots.1, bytes ++ u16 (crc bytes).toNat)

/-- The map stage (R138). -/
def State.mapStage (s : State) (r : RoomNo) : State :=
  match (s.rooms[r]).comp.pendingMap with
  | none => s
  | some map => (s.modComp r (fun c => { c with active := map, pendingMap := none })).reportMap r

/-- The advance and transmission stages (R132): the timer is reloaded. -/
def Composer.advance (c : Composer) (bytes : List Byte) : Composer :=
  { c with
    counter := (c.counter + 1) % 65536
    rotation := (c.rotation + 1) % 4
    roundTimer := some Config.roundTicks
    tx := some bytes }

/-- The round boundary of a room (R132). -/
def State.roundBoundary (s : State) (r : RoomNo) : State :=
  let s1 := (s.mapStage r).runBindings r activate
  let composed := s1.compose r
  let s2 := composed.1.modComp r (fun c => c.advance composed.2)
  ((s2.mapBindings r (fun b => { b with block := none })).refreshTally r).arbitrateBoth

/-! ### The emitter port (R130, R131, R144) -/

/-- The bits of the round in transmission already sent: its 5808 bits fill the round period, from the boundary at which
the timer was loaded (R130, R144; log 26). -/
def Composer.bitsSent (c : Composer) : Nat :=
  match c.tx, c.roundTimer with
  | some _, some n => (Config.roundTicks - n) * Config.roundBits / Config.roundTicks
  | _, _ => 0

/-- R130's transmission: the round being sent, and how far. -/
def Composer.transmission (c : Composer) : Option (List Byte × Nat) := c.tx.map (fun bytes => (bytes, c.bitsSent))

/-- The bits of a round in the order they are sent: byte by byte, the most significant bit first (R144). -/
def bitsOf (bytes : List Byte) : List Bool :=
  bytes.flatMap (fun b => [7, 6, 5, 4, 3, 2, 1, 0].map b.getLsbD)

/-- The bits that have gone out of the round in transmission: what a receiver has of a round that entry to DARK now cuts
off at the bit reached (R131). -/
def Composer.bitsOut (c : Composer) : List Bool :=
  match c.transmission with
  | none => []
  | some (bytes, sent) => (bitsOf bytes).take sent

/-- The level of a room's emitter port: that of the bit being sent, high for a 1; low while no round is sent (R144). -/
def Composer.port (c : Composer) : Bool :=
  match c.transmission with
  | none => false
  | some (bytes, sent) => ((bitsOf bytes)[sent]?).getD false

/-- R144: the port of a DARK room is low and carries no bits. -/
def State.emitterPort (s : State) (r : RoomNo) : Bool :=
  if (s.clock r).show_ = .dark then false else (s.rooms[r]).comp.port

/-- ROUND_BOUNDARY (R132): an event of a room that is not DARK (log 3, log 4). -/
def execRoundBoundary (room : RoomNo) (s : State) : Host.Outcome State Fault Refusal :=
  .next (s.ifPowered (fun s => if (s.clock room).show_ = .dark then s else s.roundBoundary room))

end Sys2Proof.Machine
end

