-- ==== Sys2Proof/Machine/Tick.lean ====
section
/-! DEFINITION. One base tick (00 Time): what step does on an empty queue (log 4). Every timer that runs counts one
tick, and what a timer brings at its expiry happens in the tick. -/

namespace Sys2Proof.Machine

open Sys2Proof

/-- R63: the chain of a room. -/
def State.tickChain (s : State) (r : RoomNo) : State :=
  match (s.clock r).chain with
  | .running pre div =>
    if pre ≤ 1 then s.prescalerExpiry r div else s.modClock r (fun c => { c with chain := .running (pre - 1) div })
  | _ => s

/-- R62: the sync hold timer of a room. -/
def State.tickSync (s : State) (r : RoomNo) : State :=
  match (s.clock r).syncTimer with
  | none => s
  | some n => if n ≤ 1 then s.syncExpiry r else s.modClock r (fun c => { c with syncTimer := some (n - 1) })

/-- R132: the round timer of a room. -/
def State.tickRound (s : State) (r : RoomNo) : State :=
  match (s.rooms[r]).comp.roundTimer with
  | none => s
  | some n => if n ≤ 1 then s.roundBoundary r else s.modComp r (fun c => { c with roundTimer := some (n - 1) })

/-- One room: frames are counted before its round boundary. -/
def State.tickRoom (s : State) (r : RoomNo) : State := ((s.tickChain r).tickSync r).tickRound r

/-- R170: the gap timer. -/
def State.tickGap (s : State) : State :=
  match s.link.gap with
  | none => s
  | some n => if n ≤ 1 then s.abandon else s.modLink (fun l => { l with gap := some (n - 1) })

/-- R175: the transmitter, whose head message is one base tick further on (log 25). -/
def State.tickSend (s : State) : State := s.modLink Link.tickSend

/-- One base tick: the transmitter, the rooms in number order, then the gap timer. A message that joins the outbound queue
in this tick starts at its end. -/
def State.tick (s : State) : State := s.ifPowered (fun s => (allRooms.foldl State.tickRoom s.tickSend).tickGap)

end Sys2Proof.Machine
end

