-- ==== Sys2Proof/Machine/Dispatch.lean ====
section
/-! DEFINITION. The meaning of every command and event: one arm per row of spec/opcode_table.json. -/

namespace Sys2Proof.Machine

open Sys2Proof

def exec (i : Instr) (s : State) : Host.Outcome State Fault Refusal :=
  match i with
  | .powerOn baud1 baud0 => Sys2Proof.Machine.execPowerOn baud1 baud0 s
  | .linkByte b stopOk => Sys2Proof.Machine.execLinkByte b stopOk s
  | .gapTimerExpiry => Sys2Proof.Machine.execGapTimerExpiry s
  | .intactFrame type tag body => Sys2Proof.Machine.execIntactFrame type tag body s
  | .messageSent => Sys2Proof.Machine.execMessageSent s
  | .ident tag => Sys2Proof.Machine.execIdent tag s
  | .softReset tag => Sys2Proof.Machine.execSoftReset tag s
  | .noticeSet tag switch mask => Sys2Proof.Machine.execNoticeSet tag switch mask s
  | .eventsRead tag scope => Sys2Proof.Machine.execEventsRead tag scope s
  | .eventsClear tag scope classes => Sys2Proof.Machine.execEventsClear tag scope classes s
  | .lineSet tag line direction level pull => Sys2Proof.Machine.execLineSet tag line direction level pull s
  | .lineRead tag => Sys2Proof.Machine.execLineRead tag s
  | .roomSetup tag room mode rate p frameLine runLine emitLine tallyLine channel carousel => Sys2Proof.Machine.execRoomSetup tag room mode rate p frameLine runLine emitLine tallyLine channel carousel s
  | .roomStatus tag room => Sys2Proof.Machine.execRoomStatus tag room s
  | .roomReset tag room => Sys2Proof.Machine.execRoomReset tag room s
  | .roomDark tag room => Sys2Proof.Machine.execRoomDark tag room s
  | .arm tag room pos endFlag endPos => Sys2Proof.Machine.execArm tag room pos endFlag endPos s
  | .go tag room => Sys2Proof.Machine.execGo tag room s
  | .hold tag room => Sys2Proof.Machine.execHold tag room s
  | .resume tag room => Sys2Proof.Machine.execResume tag room s
  | .seek tag room pos => Sys2Proof.Machine.execSeek tag room pos s
  | .retrim tag room divider => Sys2Proof.Machine.execRetrim tag room divider s
  | .endShow tag room => Sys2Proof.Machine.execEndShow tag room s
  | .slotMap tag room entries => Sys2Proof.Machine.execSlotMap tag room entries s
  | .bindTrack tag room binding trackId lang => Sys2Proof.Machine.execBindTrack tag room binding trackId lang s
  | .unbind tag room binding => Sys2Proof.Machine.execUnbind tag room binding s
  | .liveText tag room binding hold notify text => Sys2Proof.Machine.execLiveText tag room binding hold notify text s
  | .trackCreate tag trackId kind lang bank => Sys2Proof.Machine.execTrackCreate tag trackId kind lang bank s
  | .trackWrite tag trackId expected data => Sys2Proof.Machine.execTrackWrite tag trackId expected data s
  | .trackSeal tag trackId expected => Sys2Proof.Machine.execTrackSeal tag trackId expected s
  | .trackMove tag trackId patches => Sys2Proof.Machine.execTrackMove tag trackId patches s
  | .trackDelete tag trackId => Sys2Proof.Machine.execTrackDelete tag trackId s
  | .trackInfo tag trackId => Sys2Proof.Machine.execTrackInfo tag trackId s
  | .storeInfo tag => Sys2Proof.Machine.execStoreInfo tag s
  | .assign tag receiver room binding size volume => Sys2Proof.Machine.execAssign tag receiver room binding size volume s
  | .release tag receiver => Sys2Proof.Machine.execRelease tag receiver s
  | .rosterRead tag first count => Sys2Proof.Machine.execRosterRead tag first count s
  | .fetchComplete bank seen => Sys2Proof.Machine.execFetchComplete bank seen s
  | .pageWriteComplete bank flaw => Sys2Proof.Machine.execPageWriteComplete bank flaw s
  | .clearComplete bank flaw => Sys2Proof.Machine.execClearComplete bank flaw s
  | .moveStepComplete bank seen flaw => Sys2Proof.Machine.execMoveStepComplete bank seen flaw s
  | .tagReadComplete bank seen => Sys2Proof.Machine.execTagReadComplete bank seen s
  | .mountPageReadComplete bank seen => Sys2Proof.Machine.execMountPageReadComplete bank seen s
  | .framePulse room => Sys2Proof.Machine.execFramePulse room s
  | .runLineChange room level => Sys2Proof.Machine.execRunLineChange room level s
  | .syncHoldExpiry room => Sys2Proof.Machine.execSyncHoldExpiry room s
  | .prescalerExpiry room => Sys2Proof.Machine.execPrescalerExpiry room s
  | .dividerExpiry room => Sys2Proof.Machine.execDividerExpiry room s
  | .roundBoundary room => Sys2Proof.Machine.execRoundBoundary room s
  | .powerFail cut0 cut1 => Sys2Proof.Machine.execPowerFail cut0 cut1 s
  | .pinLevelChange line drive => Sys2Proof.Machine.execPinLevelChange line drive s

end Sys2Proof.Machine
end

