-- ==== Sys2Proof/Machine/Wire.lean ====
section
/-! DEFINITION. The frame a controller sends for a command (R168, R188, R189): written from the layouts of R189, beside
the reading of them in Machine/Receiver.lean. -/

namespace Sys2Proof.Machine

open Sys2Proof

/-- The body of one patch of a TRACK_MOVE. -/
def Patch.wire (p : Patch) : List Byte := u32 p.offset ++ u8 p.bytes.length ++ p.bytes

/-- The type code, tag and body of a controller command; none for an event (R189). -/
def wire? : Instr → Option (Nat × Byte × List Byte)
  | .ident tag => some (0x01, tag, [])
  | .softReset tag => some (0x02, tag, [])
  | .noticeSet tag switch mask => some (0x03, tag, u8 switch ++ u16 mask.toNat)
  | .eventsRead tag scope => some (0x04, tag, u8 scope)
  | .eventsClear tag scope classes => some (0x05, tag, u8 scope ++ u16 classes.toNat)
  | .lineSet tag line direction level pull => some (0x08, tag, u8 line ++ u8 direction ++ u8 level ++ u8 pull)
  | .lineRead tag => some (0x09, tag, [])
  | .roomSetup tag room mode rate p fl rl el tl channel carousel =>
    some (0x10, tag, u8 room ++ u8 mode ++ u8 rate ++ u16 p ++ u8 fl ++ u8 rl ++ u8 el ++ u8 tl ++ u8 channel ++ u8 carousel)
  | .roomStatus tag room => some (0x11, tag, u8 room)
  | .roomReset tag room => some (0x12, tag, u8 room)
  | .roomDark tag room => some (0x13, tag, u8 room)
  | .arm tag room pos endFlag endPos => some (0x14, tag, u8 room ++ u24 pos ++ u8 endFlag ++ u24 endPos)
  | .go tag room => some (0x15, tag, u8 room)
  | .hold tag room => some (0x16, tag, u8 room)
  | .resume tag room => some (0x17, tag, u8 room)
  | .seek tag room pos => some (0x18, tag, u8 room ++ u24 pos)
  | .retrim tag room divider => some (0x19, tag, u8 room ++ u16 divider)
  | .endShow tag room => some (0x1A, tag, u8 room)
  | .slotMap tag room entries => some (0x20, tag, u8 room ++ entries.flatMap (fun e => u8 e.1 ++ u8 e.2))
  | .bindTrack tag room binding trackId lang =>
    some (0x28, tag, u8 room ++ u8 binding ++ u16 trackId ++ Lang.bytes lang)
  | .unbind tag room binding => some (0x29, tag, u8 room ++ u8 binding)
  | .liveText tag room binding rounds notify text =>
    some (0x2A, tag, u8 room ++ u8 binding ++ u16 rounds ++ u8 notify ++ u8 text.length ++ text)
  | .trackCreate tag trackId kind lang bank => some (0x30, tag, u16 trackId ++ u8 kind ++ Lang.bytes lang ++ u8 bank)
  | .trackWrite tag trackId expected data => some (0x31, tag, u16 trackId ++ u32 expected ++ data)
  | .trackSeal tag trackId expected => some (0x32, tag, u16 trackId ++ u32 expected)
  | .trackMove tag trackId patches =>
    some (0x33, tag, u16 trackId ++ u8 patches.length ++ patches.flatMap Patch.wire)
  | .trackDelete tag trackId => some (0x34, tag, u16 trackId)
  | .trackInfo tag trackId => some (0x35, tag, u16 trackId)
  | .storeInfo tag => some (0x36, tag, [])
  | .assign tag receiver room binding size volume =>
    some (0x40, tag, u32 receiver ++ u8 room ++ u8 binding ++ u8 size ++ u8 volume)
  | .release tag receiver => some (0x41, tag, u32 receiver)
  | .rosterRead tag first count => some (0x42, tag, u16 first ++ u8 count)
  | .powerOn .. | .linkByte .. | .gapTimerExpiry | .intactFrame .. | .messageSent => none
  | .fetchComplete .. | .pageWriteComplete .. | .clearComplete .. | .moveStepComplete .. => none
  | .tagReadComplete .. | .mountPageReadComplete .. => none
  | .framePulse .. | .runLineChange .. | .syncHoldExpiry .. | .prescalerExpiry .. | .dividerExpiry .. => none
  | .roundBoundary .. | .powerFail .. | .pinLevelChange .. => none

/-- The bytes of a frame of a type, tag and body (R168): start, length, type, tag, body, check. -/
def frameBytes (type : Nat) (tag : Byte) (body : List Byte) : List Byte :=
  let checked := u16 (body.length + 2) ++ u8 type ++ [tag] ++ body
  startByte :: (checked ++ u16 (crc checked).toNat)

end Sys2Proof.Machine
end

