-- ==== Sys2Proof/Safety.lean ====
section
/-! DEFINITION. What the statements speak of: when a command is taken, what its reply adds, what an event leaves
alone, and the invariants of the part. -/

namespace Sys2Proof.Machine

open Sys2Proof

/-! ### A command is taken and answered (R171, R175) -/

/-- The part takes a command sent now: it has power, no soft reset waits (R176) and a place is free (R171). -/
def State.ready (s : State) : Prop :=
  s.powered = true ∧ s.link.resetting = false ∧ s.link.inbound.length < Config.inboundPlaces

/-- The link with a command taken and answered in one event: its place at the tail of the inbound queue, answered, and
its reply at the tail of the outbound queue. -/
def Link.replied (l : Link) (type : Nat) (tag : Byte) (done : Bool) (body : List Byte) : Link :=
  { l with
    inbound := l.inbound ++ [⟨freePlace l.inbound, tag, type, 0, true⟩]
    outbound := l.outbound ++ [.reply (freePlace l.inbound) tag done body] }

/-- The part with nothing but its link changed, by a command taken and answered. -/
def State.replied (s : State) (type : Nat) (tag : Byte) (done : Bool) (body : List Byte) : State :=
  { s with link := s.link.replied type tag done body }

/-- The body of a REFUSED reply (R189). -/
def refusedBody (reason : Reason) (detail : Nat) : List Byte := u8 reason.code ++ u32 detail

/-- The part with nothing changed but a command taken and refused (R174). -/
def State.refusedWith (s : State) (type : Nat) (tag : Byte) (reason : Reason) (detail : Nat) : State :=
  s.replied type tag false (refusedBody reason detail)

/-- A command has been taken and answered on the way from `s` to `t`, with notices of its event before its reply. -/
def Answers (s t : State) (type : Nat) (tag : Byte) (body : List Byte) : Prop :=
  t.link.inbound = s.link.inbound ++ [⟨freePlace s.link.inbound, tag, type, 0, true⟩] ∧
    ∃ notices : List OutMsg, (∀ m ∈ notices, m.isNotice = true) ∧
      t.link.outbound = s.link.outbound ++ notices ++ [.reply (freePlace s.link.inbound) tag true body]

/-- A command has been taken and left open, its reply to come (R173). -/
def Defers (s t : State) (type : Nat) (tag : Byte) (track : Nat) : Prop :=
  t.link.inbound = s.link.inbound ++ [⟨freePlace s.link.inbound, tag, type, track, false⟩] ∧
    ∃ notices : List OutMsg, (∀ m ∈ notices, m.isNotice = true) ∧ t.link.outbound = s.link.outbound ++ notices

/-- The link as it was but for notices at the tail of the outbound queue. -/
def NoticesOnly (s t : State) : Prop :=
  ∃ notices : List OutMsg, (∀ m ∈ notices, m.isNotice = true) ∧
    t.link = { s.link with outbound := s.link.outbound ++ notices }

/-! ### What an event leaves alone -/

/-- The receiver, the link rate, the soft-reset mark, and how long the head message has been sent. -/
def sameReceiver (s t : State) : Prop :=
  t.link.rate = s.link.rate ∧ t.link.receiver = s.link.receiver ∧ t.link.gap = s.link.gap ∧
    t.link.resetting = s.link.resetting ∧ t.link.sendTicks = s.link.sendTicks

/-- The store and its directory: the arrays, the banks, the tracks. -/
def sameStore (s t : State) : Prop := t.arrays = s.arrays ∧ t.banks = s.banks ∧ t.tracks = s.tracks

/-- Power and the queue of commands that wait. -/
def sameOutside (s t : State) : Prop := t.powered = s.powered ∧ t.pending = s.pending

/-- Every room but one. -/
def sameOtherRooms (s t : State) (r : RoomNo) : Prop := ∀ q : RoomNo, q ≠ r → t.rooms[q] = s.rooms[q]

/-- Every bank but one, and its array. -/
def sameOtherBank (s t : State) (k : BankNo) : Prop :=
  ∀ j : BankNo, j ≠ k → t.banks[j] = s.banks[j] ∧ t.arrays[j] = s.arrays[j]

/-- The latch, its notice and its owed entry, of every class and scope but one, with the switch and the mask. -/
def sameOtherEvents (s t : State) (e : EventId) : Prop :=
  (∀ o : EventId, o ≠ e → t.evu.latch o = s.evu.latch o) ∧ t.evu.switch = s.evu.switch ∧ t.evu.mask = s.evu.mask

/-- A room as it was, its show clock apart. -/
def Room.sameButClock (a b : Room) : Prop := b = { a with clock := b.clock }

/-- The latch of one class in one scope after one occurrence (R180): set, its count one more, up to 255. -/
def Latch.afterRaise (l : Latch) : Bool × Nat := if l.set_ then (true, min 255 (l.count + 1)) else (true, 1)

/-- One occurrence of a class has been taken on the way from `s` to `t` (R180). -/
def RaisedOnce (s t : State) (e : EventId) : Prop :=
  ((t.evu.latch e).set_, (t.evu.latch e).count) = (s.evu.latch e).afterRaise

/-- A class has been raised twice on the way from `s` to `t` (R180). -/
def RaisedTwice (s t : State) (e : EventId) : Prop :=
  (t.evu.latch e).set_ = true ∧
    (t.evu.latch e).count = if (s.evu.latch e).set_ then min 255 ((s.evu.latch e).count + 2) else 2

/-- R21: a bank's free-plus-clear count is judged on the way from `s` to `t`, and nothing else raised: SEGMENTS_LOW is
raised once where the count goes from 32 or more to below 32, and otherwise the event unit is as it was. -/
def JudgesLow (s t : State) (k : BankNo) : Prop :=
  let count (x : State) : Nat := (x.banks[k]).free.length + (x.banks[k]).clearQ.length
  let falls : Prop := 32 ≤ count s ∧ count t < 32
  (falls → RaisedOnce s t (.device .segmentsLow) ∧ sameOtherEvents s t (.device .segmentsLow)) ∧
    (¬falls → t.evu = s.evu)

/-- A frame has been abandoned on the way from `s` to `t` (R170). -/
def Abandons (s t : State) : Prop :=
  t.link.receiver = .hunt ∧ t.link.gap = none ∧ t.link.inbound = s.link.inbound ∧ t.link.rate = s.link.rate ∧
    t.link.resetting = s.link.resetting ∧ t.link.sendTicks = s.link.sendTicks ∧
    (∃ notices : List OutMsg, (∀ m ∈ notices, m.isNotice = true) ∧ t.link.outbound = s.link.outbound ++ notices) ∧
    RaisedOnce s t (.device .linkError) ∧ sameOtherEvents s t (.device .linkError) ∧
    t.lines = s.lines ∧ t.rooms = s.rooms ∧ t.roster = s.roster ∧ sameStore s t ∧ sameOutside s t

/-- Every block has the state it has after power-on, at a link rate; the arrays, the outside of the pins and the queue of
commands are those of `s` (R22, R53, R72, R130, R146, R159, R178, R186). -/
def PowerOnState (s t : State) (rate : Nat) : Prop :=
  t.powered = true ∧ t.arrays = s.arrays ∧ t.pending = s.pending ∧
    t.link = ⟨rate, .hunt, none, [], [], false, 0⟩ ∧
    t.evu.switch = false ∧ t.evu.mask = 0x1FFF#16 ∧ t.evu.owed = [] ∧
    (∀ e : EventId, t.evu.latch e = ⟨false, 0, false⟩) ∧
    (∀ l : LineNo, (t.lines[l]).dirOut = false ∧ (t.lines[l]).level = false ∧ (t.lines[l]).pull = .none ∧
      (t.lines[l]).outside = (s.lines[l]).outside) ∧
    (∀ r : RoomNo,
      t.clock r = ⟨.dark, 0, none, ⟨false, false, false⟩, .external, 24, none, none, none, none, .stopped, none, none,
        none, none, none, r.val + 1, 50⟩ ∧
      (∀ i : BindNo, (t.binding r i).state = .unbound ∧ (t.binding r i).track = .none ∧ (t.binding r i).gen = 0 ∧
        (t.binding r i).fetch = .empty ∧ (t.binding r i).serve = none ∧ (t.binding r i).issued = none ∧
        (t.binding r i).prompt = [] ∧ (t.binding r i).rept = [] ∧ (t.binding r i).window = []) ∧
      (t.rooms[r]).ring = [] ∧ (t.rooms[r]).liveSerial = 1 ∧
      (t.rooms[r]).comp = ⟨none, 0, 0, SlotMap.default, none, none⟩ ∧
      (t.rooms[r]).rota = [] ∧ (t.rooms[r]).cursor = none ∧ (t.rooms[r]).urgent = []) ∧
    (∀ i : RosterIx, t.roster[i] = none) ∧ t.tracks = [] ∧
    ∀ k : BankNo, (t.banks[k]).free = [] ∧ (t.banks[k]).clearQ = [] ∧ (t.banks[k]).retired = [] ∧
      (t.banks[k]).drain = [] ∧ (t.banks[k]).fetchQ = [] ∧ (t.banks[k]).runCount = 0 ∧
      (t.banks[k]).rotation = .load ∧ (t.banks[k]).loadBuf = none ∧ (t.banks[k]).moveReg = none ∧
      (t.banks[k]).halted = false ∧
      (∀ g : SegNo, (t.banks[k]).segs[g] = ⟨.unmounted, 0, none⟩) ∧
      (t.banks[k]).mount = some ⟨.scan 0, [], [], []⟩ ∧ (t.banks[k]).op = some (.tagRead 0 0 0)

/-- Every block is without power: as after power-on, with no operation and no mount in the banks; the arrays are given
elsewhere (R12, R22). -/
def PowerDownState (s t : State) : Prop :=
  t.powered = false ∧ t.pending = s.pending ∧ t.link = ⟨s.link.rate, .hunt, none, [], [], false, 0⟩ ∧
    t.evu = State.reset.evu ∧ t.rooms = State.reset.rooms ∧ t.roster = State.reset.roster ∧ t.tracks = [] ∧
    (∀ l : LineNo, (t.lines[l]).dirOut = false ∧ (t.lines[l]).level = false ∧ (t.lines[l]).pull = .none ∧
      (t.lines[l]).outside = (s.lines[l]).outside) ∧
    ∀ k : BankNo, t.banks[k] = { State.reset.banks[k] with op := none, mount := none }

/-- A page of a bank is as it was. -/
def samePage (a b : BankArray) (g : SegNo) (pg : Nat) : Prop :=
  (∀ off, off < 2048 → b.cell g pg off = a.cell g pg off) ∧ ∀ i, i < 4 → b.slot g pg i = a.slot g pg i

/-- Every page of a bank but one is as it was. -/
def sameOtherPages (a b : BankArray) (g : SegNo) (pg : Nat) : Prop :=
  ∀ (h : SegNo) (q : Nat), q < 64 → (h, q) ≠ (g, pg) → samePage a b h q

/-- What a write cut by a power failure leaves of the tag slot it was writing (R12): the slot as it was, a damaged one,
or a page that a later fetch gives CHECK_FAIL. -/
def CutWrite (a b : BankArray) (g : SegNo) (pg slot : Nat) : Prop :=
  b.slot g pg slot = a.slot g pg slot ∨ (∃ x, b.slot g pg slot = some x ∧ slotIntact slot x = false) ∨
    judgePage (b.view g pg) = none

/-- What a clear cut by a power failure leaves (R12): the pages from some page above 0 upward are unwritten, the lower
ones are intact, and each tag slot of page 0 is intact, blank or damaged. -/
def CutClear (a b : BankArray) (g : SegNo) : Prop :=
  (∀ (h : SegNo) (q : Nat), h ≠ g → q < 64 → samePage a b h q) ∧
    ∃ n, 1 ≤ n ∧ ∀ pg, pg < 64 →
      (n ≤ pg → (∀ off, off < 2048 → b.cell g pg off = none) ∧ ∀ i, i < 4 → b.slot g pg i = none) ∧
      (pg < n → (∀ off, off < 2048 → b.cell g pg off = a.cell g pg off) ∧
        ∀ i, i < 4 → b.slot g pg i = a.slot g pg i ∨
          (pg = 0 ∧ (b.slot g pg i = none ∨ ∃ x, b.slot g pg i = some x ∧ slotIntact i x = false)))

/-! ### What a binding is brought to -/

/-- R114 to R117: what a reposition to a seek position makes of a bound binding whose track the directory shows as
`view`. A TEXT or VOICE binding asks for page 0 of its start segment, at once or behind the issued fetch (R82). -/
def Repositioned (view : Option TrackView) (pos : Nat) (b b' : Binding) : Prop :=
  (b'.gen = b.gen + 1 ∧ b'.track = b.track ∧ b'.kind = b.kind ∧ b'.lang = b.lang ∧ b'.bank = b.bank) ∧
  (b'.serve = none ∧ b'.part = none ∧ b'.nextSerial = 1 ∧ b'.endTaken = false ∧ b'.staging = [] ∧ b'.window = [] ∧
    b'.rept = [] ∧ b'.clip = none ∧ b'.nextClip = .none ∧ b'.skipTo = none ∧ b'.locate = .none) ∧
  (b.kind = some .live → b'.state = .playing ∧ b'.loaded = true ∧ b'.prompt = [⟨.wipe, 0⟩] ∧ b'.scan = none ∧
    b'.fetch = .empty ∧ b'.issued = b.issued.map (fun x => { x with stale := true })) ∧
  ((b.kind = some .text ∨ b.kind = some .voice) → b'.state = .priming ∧ b'.loaded = false ∧
    b'.prompt = (if b.kind = some .text then [⟨.wipe, 0⟩] else []) ∧
    ∀ v, view = some v →
      let e := startSegment v pos
      b'.scan = some ⟨pos, .opening, e.ord, e.entry, [], none⟩ ∧
      (∀ x, b.issued = some x →
        b'.issued = some { x with stale := true } ∧ b'.fetch = .requested ⟨e.ord, 0⟩ 0 false true) ∧
      ∀ g, b.issued = none → segOf? v.segs e.ord = some g →
        b'.issued = some ⟨g, ⟨e.ord, 0⟩, b.gen + 1, false⟩ ∧ b'.fetch = .requested ⟨e.ord, 0⟩ 0 false false)

/-- The request of a repositioned binding with no issued fetch is in its bank's fetch queue (R81, R6). -/
def RequestsStart (t : State) (r : RoomNo) (i : BindNo) (view : Option TrackView) (pos : Nat) (b : Binding) : Prop :=
  ∀ v g, (b.kind = some .text ∨ b.kind = some .voice) → view = some v → b.issued = none →
    segOf? v.segs (startSegment v pos).ord = some g →
    (⟨r, i, b.gen + 1, g, 0⟩ : FetchReq) ∈ (t.banks[b.bank]).fetchQ

/-- Every bound binding of a room has been repositioned on the way from `s` to `t`, and no other has changed. -/
def RoomRepositioned (s t : State) (r : RoomNo) (pos : Nat) : Prop :=
  ∀ i : BindNo,
    ((s.binding r i).bound = true →
      Repositioned (s.trackView (s.binding r i)) pos (s.binding r i) (t.binding r i) ∧
        RequestsStart t r i (s.trackView (s.binding r i)) pos (s.binding r i)) ∧
    ((s.binding r i).bound = false → t.binding r i = s.binding r i)

/-- What an ASSIGNED entry, or an entry of another room, is after a room's directive path has closed (R157): a forward
pending in the room is cancelled, all else kept. -/
def RosterEntry.pathClosed (e : RosterEntry) (r : RoomNo) : RosterEntry :=
  if e.former = some r then { e with former := none, forwardCount := 0 } else e

/-- R39: a patch of a move fits where the patches before it end at track byte offset `low`: its length is 1 to 64, it does
not begin below `low`, and in a track of known length it does not reach into the END record. -/
def patchFits (length : Option Nat) (low : Nat) (p : Patch) : Prop :=
  1 ≤ p.bytes.length ∧ p.bytes.length ≤ 64 ∧ low ≤ p.offset ∧
    ∀ n, length = some n → p.offset + p.bytes.length + 12 ≤ n

/-- The track byte offset at which the patches before number `n` of a list end. -/
def patchEnd (patches : List Patch) : Nat → Nat
  | 0 => 0
  | n + 1 => match patches[n]? with
    | none => 0
    | some p => p.offset + p.bytes.length

/-- A write waits in a bank's load buffer or is in its array (R14, R13). -/
def Bank.hasWrite (b : Bank) (lb : LoadBuf) : Prop := b.loadBuf = some lb ∨ b.op = some (.pageWrite lb)

/-- The shape of an array write: within one page of one segment. -/
def LoadBuf.inPage (lb : LoadBuf) : Prop :=
  lb.page < Config.pagesPerSegment ∧ lb.slot < Config.slotsPerPage ∧ lb.fillBefore + lb.data.length ≤ Config.pageBytes

/-! ### Invariants -/

/-- The arrays keep their canonical form. -/
def State.arraysSound (s : State) : Prop := ∀ k : BankNo, Memory.wf s.arrays[k]

/-- R55, R62, R63: a room is HELD exactly while its hold-cause set is not empty; its sync hold timer is armed exactly
while it is RUNNING in EXTERNAL mode; its chain counts exactly while it is RUNNING in INTERNAL mode, and keeps its
counts exactly while it is HELD in INTERNAL mode. -/
def Clock.coherent (c : Clock) : Prop :=
  (c.show_ = .held ↔ c.holds ≠ Holds.empty) ∧
    (c.syncTimer.isSome = true ↔ c.show_ = .running ∧ c.mode = .external) ∧
    (match c.chain with
     | .running _ _ => c.show_ = .running ∧ c.mode = .internal
     | .paused _ _ => c.show_ = .held ∧ c.mode = .internal
     | .stopped => c.started = true → c.mode = .external)

/-- R53, R57: the position stays in its range and at or below the end position, and below it until the show ends. -/
def Clock.withinShow (c : Clock) : Prop :=
  c.pos ≤ Config.maxPosition ∧ (∀ e, c.endPos = some e → e ≤ Config.maxPosition) ∧
    (c.show_ ≠ .dark → c.pos ≤ c.endPos.getD Config.maxPosition) ∧
    (c.inService = true → c.pos < c.endPos.getD Config.maxPosition)

/-- R130, R131: the rotation index is the round counter modulo 4 while the counter keeps its 16 bits, and rounds run
exactly while the room is not DARK. -/
def Room.roundsSound (room : Room) : Prop :=
  room.comp.counter < 65536 ∧ room.comp.rotation = room.comp.counter % 4 ∧
    (room.clock.show_ = .dark ↔ room.comp.roundTimer = none)

def State.clocksCoherent (s : State) : Prop := ∀ r : RoomNo, (s.clock r).coherent

def State.positionsSound (s : State) : Prop := ∀ r : RoomNo, (s.clock r).withinShow

def State.roundsSound (s : State) : Prop := ∀ r : RoomNo, (s.rooms[r]).roundsSound

/-- R180: a clear latch has count 0 and no notice queued, a set one a count of 1 to 255. -/
def Latch.sound (l : Latch) : Prop :=
  (l.set_ = false → l.count = 0 ∧ l.queued = false) ∧ (l.set_ = true → 1 ≤ l.count ∧ l.count ≤ 255)

/-- R180, R182: every latch is sound, and each pair on the owed list names a set latch of an effectively enabled class
whose notice has not been queued, no pair twice. -/
def State.eventsSound (s : State) : Prop :=
  (∀ e : EventId, (s.evu.latch e).sound) ∧ s.evu.owed.Nodup ∧
    ∀ e ∈ s.evu.owed, (s.evu.latch e).set_ = true ∧ (s.evu.latch e).queued = false ∧ s.evu.enabled e = true

/-- A message is the reply of the command at a place. -/
def OutMsg.repliesTo (p : Nat) : OutMsg → Bool
  | .reply q _ _ _ => decide (q = p)
  | .notice _ _ => false

/-- R171, R175: at most eight commands hold a place, each a place of its own; at most 24 notices are queued; each
answered command has one reply in the outbound queue, each open one none; and an idle transmitter has sent nothing of its
next message. -/
def Link.sound (l : Link) : Prop :=
  l.inbound.length ≤ Config.inboundPlaces ∧ (l.inbound.map (·.place)).Nodup ∧
    l.notices ≤ Config.outboundNotices ∧ (l.outbound = [] → l.sendTicks = 0) ∧
    ∀ p : Nat, l.outbound.countP (OutMsg.repliesTo p) =
      l.inbound.countP (fun c => decide (c.place = p) && c.answered)

/-- R147, R148: the rota of each room lists the entries of that room, each once; its cursor is one of them, and absent
exactly when there is none; its urgent queue holds entries of the room or pending forwards of it, none twice. -/
def State.rotasSound (s : State) : Prop :=
  ∀ r : RoomNo,
    (s.rooms[r]).rota.Nodup ∧
    (∀ i : RosterIx, i ∈ (s.rooms[r]).rota ↔ ∃ e, s.roster[i] = some e ∧ e.room = r) ∧
    ((s.rooms[r]).cursor = none ↔ (s.rooms[r]).rota = []) ∧
    (∀ i, (s.rooms[r]).cursor = some i → i ∈ (s.rooms[r]).rota) ∧
    (s.rooms[r]).urgent.Nodup ∧
    ∀ i ∈ (s.rooms[r]).urgent, ∃ e, s.roster[i] = some e ∧ (e.room = r ∨ e.former = some r)

/-- R146: no two entries hold one receiver ID, and none is in both its room and its former room. R148: an entry has a
former room exactly while its forward count is not 0. -/
def State.receiversSound (s : State) : Prop :=
  (∀ (i j : RosterIx) (a b : RosterEntry),
    s.roster[i] = some a → s.roster[j] = some b → a.receiver = b.receiver → i = j) ∧
  ∀ (i : RosterIx) (e : RosterEntry), s.roster[i] = some e →
    e.former ≠ some e.room ∧ (e.former = none ↔ e.forwardCount = 0)

/-- The groups a mount has in hand at its end are of distinct track IDs; those it is judging are of distinct track IDs
and generations. -/
def MountProgress.distinct (m : MountProgress) : Prop :=
  match m.phase with
  | .scan _ | .contest .. => True
  | .judge g _ _ rest js =>
    ((js.map (·.group) ++ g :: rest).map (fun x => (x.trackId, x.gen))).Nodup
  | .finished kept => (kept.map (fun j => j.group.trackId)).Nodup

/-- R24, R46: the directory holds at most 128 entries, in ascending track ID, so each ID once. -/
def State.directorySound (s : State) : Prop :=
  s.tracks.Pairwise (fun a b => a.id < b.id) ∧ s.tracks.length ≤ Config.directoryEntries ∧
    ∀ k : BankNo, ∀ m, (s.banks[k]).mount = some m → m.distinct

/-! ### The store's books (R13 to R20, R24, R40, R47 to R51) -/

/-- The targets of the moves of one bank (R40). -/
def State.targetSegs (s : State) (k : BankNo) : List SegNo :=
  (s.tracks.filter (fun t => decide (t.bank = k))).flatMap Track.targets

/-- The segments of one pool are those listed, each once. -/
def Bank.poolIs (b : Bank) (pool : Pool) (l : List SegNo) : Prop :=
  l.Nodup ∧ ∀ g : SegNo, g ∈ l ↔ (b.segs[g]).pool = pool

/-- R16, R17: the free list, the clear queue, the retired list and the drain set of a bank, the segments of its tracks
and the targets of its move are disjoint, since a segment has one pool; in a mounted bank of a powered part every segment
is in one of them, and in a mounting bank none. -/
def State.poolsSound (s : State) : Prop :=
  ∀ k : BankNo,
    let b := s.banks[k]
    b.poolIs .free b.free ∧ b.poolIs .clearQueue b.clearQ ∧ b.poolIs .retired b.retired ∧ b.poolIs .drain b.drain ∧
      b.poolIs .owned (ownedSegs s.tracks k) ∧ b.poolIs .moveTarget (s.targetSegs k) ∧
      (s.powered = true → b.mount = none → ∀ g : SegNo, (b.segs[g]).pool ≠ .unmounted) ∧
      (b.mount ≠ none → ∀ g : SegNo, (b.segs[g]).pool = .unmounted)

/-- R24, R37, R40: each ID once; at most one MOVING track of a bank, the MOVING ones being those with move progress; a
delete that clears has no segment left; a LOADING track's ordinals count from 0; a SEALED or MOVING one has its summary. -/
def State.tracksSound (s : State) : Prop :=
  s.tracks.Pairwise (fun a b => a.id < b.id) ∧
  s.tracks.Pairwise (fun a b => ¬(a.state = .moving ∧ b.state = .moving ∧ a.bank = b.bank)) ∧
  ∀ t ∈ s.tracks,
    (t.state = .moving ↔ t.move ≠ none) ∧
    (t.clearing ≠ [] → t.state = .deleting ∧ t.segs = []) ∧
    (t.state = .loading → t.segs.map (·.ord) = List.range t.segs.length) ∧
    (t.state = .sealed ∨ t.state = .moving → t.summary ≠ none)

/-- A write of a track waits in the load buffer. -/
def Bank.buffering (b : Bank) (id : Nat) : Bool := b.loadBuf.any (fun lb => decide (lb.trackId = id))

/-- R12, R14, R15, R32: what is in a bank's array or waits for it belongs to the store as it stands. A clear is of the
head of the clear queue; a write is of a LOADING track, or in the array of a DELETING one, into a segment of it; a move
step is of the next page of a move of the bank, into its target. In a bank that has not been halted a LOADING track
counts its writes in flight. -/
def State.workSound (s : State) : Prop :=
  ∀ k : BankNo,
    let b := s.banks[k]
    (∀ g, b.op = some (.clear g) → b.clearQ.head? = some g) ∧
    (∀ lb, b.loadBuf = some lb → ∃ t ∈ s.tracks, t.id = lb.trackId ∧ t.bank = k ∧ t.state = .loading ∧
      lb.seg ∈ t.segs.map (·.seg)) ∧
    (∀ lb, b.op = some (.pageWrite lb) → ∃ t ∈ s.tracks, t.id = lb.trackId ∧ t.bank = k ∧
      (t.state = .loading ∨ t.state = .deleting) ∧ lb.seg ∈ t.segs.map (·.seg)) ∧
    (∀ id src tgt page, b.op = some (.moveStep id src tgt page) → ∃ t ∈ s.tracks, t.id = id ∧ t.bank = k ∧
      ∃ m, t.move = some m ∧ m.next = page ∧ ∃ e ∈ m.targets, e.ord = page.ord ∧ e.seg = tgt) ∧
    (b.halted = false → ∀ t ∈ s.tracks, t.bank = k → t.state = .loading →
      t.inFlight = (b.buffering t.id).toNat + (b.writing t.id).toNat)

/-- The segments a mount holds as members of groups. -/
def MountProgress.inHand (m : MountProgress) : List SegNo :=
  match m.phase with
  | .scan _ | .contest .. => m.members.map (·.seg)
  | .judge g _ _ rest js => (js.map (·.group) ++ g :: rest).flatMap Group.segs
  | .finished kept => kept.flatMap (fun j => j.group.segs)

/-- The contenders of a mount's contests, read and to be read. -/
def MountProgress.contending (m : MountProgress) : List Member :=
  match m.phase with
  | .contest cands _ _ done rest => done.map (·.member) ++ cands ++ rest.flatten
  | _ => []

/-- R47 to R50: each segment read so far is to be free, to be cleared, or a member, and is one of them once; the
contenders are members, each once. -/
def MountProgress.accounted (m : MountProgress) : Prop :=
  (m.toFree ++ m.toClear ++ m.inHand).Nodup ∧
    (∀ g : SegNo, g ∈ m.toFree ++ m.toClear ++ m.inHand ↔
      match m.phase with
      | .scan h => g < h
      | _ => True) ∧
    (m.contending.map (·.seg)).Nodup ∧ ∀ x ∈ m.contending, x ∈ m.members

/-- R47, R51: the mounts of the two banks end together; while they last the directory and the fetch queues are empty, and
each has its segments accounted for. -/
def State.mountsSound (s : State) : Prop :=
  ((s.banks[(0 : BankNo)]).mount = none ↔ (s.banks[(1 : BankNo)]).mount = none) ∧
    (s.mounting = true → s.tracks = []) ∧
    ∀ k : BankNo, ∀ m, (s.banks[k]).mount = some m → m.accounted ∧ m.distinct

/-- The store's pools, entries, work and mounts agree. -/
def State.storeSound (s : State) : Prop := s.poolsSound ∧ s.tracksSound ∧ s.workSound ∧ s.mountsSound

/-- The requests of one binding in the fetch queues of both banks. -/
def State.requestsOf (s : State) (r : RoomNo) (i : BindNo) : List FetchReq :=
  ((s.banks[(0 : BankNo)]).fetchQ ++ (s.banks[(1 : BankNo)]).fetchQ).filter
    (fun q => decide (q.room = r) && decide (q.binding = i))

/-- The bindings that name a track. -/
def State.bindersOf (s : State) (id : Nat) : List (RoomNo × BindNo) :=
  allRooms.flatMap (fun r =>
    (allBindings.filter (fun i => decide ((s.binding r i).track = .stored id))).map (fun i => (r, i)))

/-- R13, R20: each segment's reference count is the number of requests in its bank's fetch queue that name it; a fetch in
the array is the head of that queue; the run count is at most 8. R81: a binding has one request in the queues while it
has an issued fetch, for that segment and page, and with its generation unless the fetch is stale, and none otherwise. R7,
R23: in a part that SOFT_RESET has stopped the request may have left the queue undelivered. -/
def State.fetchesSound (s : State) : Prop :=
  (∀ k : BankNo,
    let b := s.banks[k]
    b.runCount ≤ 8 ∧ (∀ q, b.op = some (.fetch q) → b.fetchQ.head? = some q) ∧ (b.mount ≠ none → b.fetchQ = []) ∧
      ∀ g : SegNo, (b.segs[g]).refs = b.fetchQ.countP (fun q => decide (q.seg = g))) ∧
  ∀ (r : RoomNo) (i : BindNo),
    ((s.requestsOf r i).map (fun q => (q.seg, q.page)) =
        ((s.binding r i).issued.toList).map (fun x => (x.seg, x.page.pg)) ∨
      (s.requestsOf r i = [] ∧ ∃ k : BankNo, (s.banks[k]).halted = true)) ∧
    ∀ x, (s.binding r i).issued = some x → x.stale = false →
      ∀ q ∈ s.requestsOf r i, q.gen = (s.binding r i).gen

/-- R24, R73, R76: an UNBOUND binding names no track and an UNBINDING one no stored track; a track that a binding names
stands in the directory, SEALED or MOVING, in the binding's bank; and each track counts the bindings that name it. -/
def State.bindsSound (s : State) : Prop :=
  (∀ (r : RoomNo) (i : BindNo),
    ((s.binding r i).state = .unbound → (s.binding r i).track = .none) ∧
    ((s.binding r i).state = .unbinding → ∀ id, (s.binding r i).track ≠ .stored id) ∧
    ∀ id, (s.binding r i).track = .stored id →
      ∃ t ∈ s.tracks, t.id = id ∧ (t.state = .sealed ∨ t.state = .moving) ∧ t.bank = (s.binding r i).bank) ∧
  ∀ t ∈ s.tracks, t.bindCount = (s.bindersOf t.id).length

/-- R13: a mounted bank that is idle, and has not been halted, has no fetch waiting and no work ready; a mounting one has
no read to issue. -/
def State.workGranted (s : State) : Prop :=
  s.powered = true → ∀ k : BankNo,
    let b := s.banks[k]
    b.op = none → b.halted = false →
      match b.mount with
      | some m => m.nextOp? = none
      | none => b.fetchQ = [] ∧ s.readyWork? k = none

/-! ### The bindings' lists (R82, R92, R97 to R99, R105, R116) -/

/-- A window cue is of a kind of binding. -/
def WinCue.ofKind (c : WinCue) (kind : Option BKind) : Prop :=
  match c.time with
  | .frames _ _ => kind = some .text
  | .live _ _ => kind = some .live

/-- R98, R99: the feed queues keep their bounds; only the head of a queue, and of one queue, is partly sent; and each
message has a fragment left. -/
def Binding.feedsSound (b : Binding) : Prop :=
  b.prompt.length ≤ Config.promptPlaces ∧ b.rept.length ≤ Config.repeatPlaces ∧
    (∀ m ∈ b.prompt.drop 1 ++ b.rept.drop 1, m.sent = 0) ∧
    (∀ p q, b.prompt.head? = some p → b.rept.head? = some q → p.sent = 0 ∨ q.sent = 0) ∧
    ∀ m ∈ b.prompt ++ b.rept, m.sent < m.body.fragments

/-- R92, R97, R116: the caption window holds at most 4 cues and the staging list at most 8, each in order of start frame;
the window's cues are of the binding's kind, and an UNBOUND or UNBINDING binding has none; a scan record stands only
beside PRIMING, with an empty staging list and at most 4 candidates. -/
def Binding.listsSound (b : Binding) : Prop :=
  b.window.length ≤ Config.windowPlaces ∧ b.window.Pairwise (fun x y => x.start ≤ y.start) ∧
    (∀ c ∈ b.window, c.ofKind b.kind) ∧ ((b.state = .unbound ∨ b.state = .unbinding) → b.window = []) ∧
    b.staging.length ≤ Config.stagingPlaces ∧ b.staging.Pairwise (fun x y => x.start ≤ y.start) ∧
    ∀ sc, b.scan = some sc → b.state = .priming ∧ b.staging = [] ∧ sc.cands.length ≤ 4

/-- R7, R82, R111: the data of a page in hand are as long as its fill mark, and a voice block has 32 bytes. -/
def Binding.pagesSound (b : Binding) : Prop :=
  (∀ sp, b.serve = some sp → sp.data.length = sp.fill) ∧
    (∀ page base fill data, b.fetch = .filled page base fill data → data.length = fill) ∧
    ∀ block, b.block = some block → block.length = 32

/-- R105, R106: a room's live-text ring holds at most 8 entries, of 1 to 244 bytes and holds of 1 to 3000. -/
def Room.ringSound (room : Room) : Prop :=
  room.ring.length ≤ Config.ringPlaces ∧
    ∀ e ∈ room.ring, 1 ≤ e.hold ∧ e.hold ≤ 3000 ∧ 1 ≤ e.text.length ∧ e.text.length ≤ 244

def State.bindingsSound (s : State) : Prop :=
  ∀ r : RoomNo, (s.rooms[r]).ringSound ∧
    ∀ i : BindNo, (s.binding r i).feedsSound ∧ (s.binding r i).listsSound ∧ (s.binding r i).pagesSound

end Sys2Proof.Machine
end

