-- ==== Sys2Proof/Certificates/Slice0/Obligations.lean ====
section
/-! DEFINITION. The statements for the provers. Each docstring names the rules of spec/ it rests on and, where a clause
is the model's choice, the log entry. -/

open Sys2Proof Sys2Proof.Machine

/-! ### The step -/

/-- Step takes the command at the front of the queue and runs exec on it with the queue's rest. -/
def Obligations.StepRunsTheFrontCommand : Prop :=
  ∀ (c : Instr) (rest : List Instr) (s : State), s.pending = c :: rest → step s = exec c { s with pending := rest }

/-- On an empty queue one base tick passes (log 4). Nothing happens in it without power; with it the message being sent
is one tick further on (log 25), the rooms take their ticks in number order, and then the gap timer counts. In a room
the chain counts first (R63), then the sync hold timer (R62), then the round timer (R132): the prescaler count falls,
the divider count falls at a prescaler expiry, the divider expires at its last count; a timer counts down, and at its
last tick brings its event; what is stopped does nothing. Where no timer of a room runs, a running gap timer counts one
tick, and one at its last tick abandons the frame (R170). -/
def Obligations.EmptyQueuePassesOneBaseTick : Prop :=
  ((∀ s : State, s.pending = [] → step s = .next s.tick) ∧
   (∀ s : State, s.powered = false → s.tick = s) ∧
   (∀ s : State, s.powered = true → s.tick = ((List.finRange 16).foldl State.tickRoom s.tickSend).tickGap) ∧
   (∀ s : State, s.link.outbound = [] → s.tickSend = s) ∧
   (∀ s : State, s.link.outbound ≠ [] →
     s.tickSend = { s with link := { s.link with sendTicks := s.link.sendTicks + 1 } }) ∧
   (∀ (s : State) (r : RoomNo), s.tickRoom r = ((s.tickChain r).tickSync r).tickRound r) ∧
   ∀ s : State, s.pending = [] → s.powered = true →
     (∀ r : RoomNo, (s.clock r).syncTimer = none ∧ (s.rooms[r]).comp.roundTimer = none ∧
       ∀ pre div, (s.clock r).chain ≠ .running pre div) →
     let s1 := s.tickSend
     (s.link.gap = none → step s = .next s1) ∧
     (∀ n, s.link.gap = some n → 1 < n → step s = .next { s1 with link := { s1.link with gap := some (n - 1) } }) ∧
     (s.link.gap = some 1 → ∃ t, step s = .next t ∧ Abandons s1 t)) ∧
  (∀ (s : State) (r : RoomNo),
     ((∀ pre div, (s.clock r).chain ≠ .running pre div) → s.tickChain r = s) ∧
     (∀ pre div, (s.clock r).chain = .running pre div →
       (1 < pre → s.tickChain r = s.modClock r (fun c => { c with chain := .running (pre - 1) div })) ∧
       (pre = 1 → 1 < div →
         s.tickChain r = s.modClock r (fun c => { c with chain := .running (c.p.getD 0) (div - 1) })) ∧
       (pre = 1 → div = 1 → s.tickChain r = s.dividerExpiry r)) ∧
     ((s.clock r).syncTimer = none → s.tickSync r = s) ∧
     (∀ n, (s.clock r).syncTimer = some n →
       (1 < n → s.tickSync r = s.modClock r (fun c => { c with syncTimer := some (n - 1) })) ∧
       (n = 1 → s.tickSync r = s.syncExpiry r)) ∧
     ((s.rooms[r]).comp.roundTimer = none → s.tickRound r = s) ∧
     ∀ n, (s.rooms[r]).comp.roundTimer = some n →
       (1 < n → s.tickRound r = s.modComp r (fun c => { c with roundTimer := some (n - 1) })) ∧
       (n = 1 → s.tickRound r = s.roundBoundary r))

/-! ### Bytes and frames -/

/-- R187: the register starts at FFFFh, takes each byte most significant bit first, shifts left and adds 1021h when the
bit shifted out differs from the input bit; "123456789" gives 29B1h; data with their own check leave 0000h. -/
def Obligations.CyclicCheckFollowsItsDefinition : Prop :=
  crc [] = 0xFFFF#16 ∧
  (∀ (bs : List Byte) (b : Byte),
    crc (bs ++ [b]) = (List.range 8).foldl (fun (reg : Check) i =>
      if reg.msb ≠ b.getMsbD i then (reg <<< 1) ^^^ 0x1021#16 else reg <<< 1) (crc bs)) ∧
  crc [0x31#8, 0x32#8, 0x33#8, 0x34#8, 0x35#8, 0x36#8, 0x37#8, 0x38#8, 0x39#8] = 0x29B1#16 ∧
  ∀ bs : List Byte, crc (bs ++ u16 (crc bs).toNat) = 0#16

/-- R172, R188, R189: the body of a frame is read back as it was laid out. An intact frame that carries a command's type
code, tag and body does what the command does, in every state, for every command and every value of its fields. -/
def Obligations.FrameBodiesAreReadAsLaidOut : Prop :=
  ∀ (i : Instr) (s : State) (type : Nat) (tag : Byte) (body : List Byte),
    i.wellFormed = true → wire? i = some (type, tag, body) →
      type < 256 ∧ body.length ≤ Config.largestBody ∧ exec (.intactFrame type tag body) s = exec i s ∧
        ∃ t, exec (.intactFrame type tag body) s = .next t

/-- R168, R169, R171: the bytes of a frame, taken one by one from HUNT without byte error, do what its completion
does, the receiver being in HUNT again and the gap timer disarmed. -/
def Obligations.BytesOfAFrameReachTheInboundQueue : Prop :=
  ∀ (type : Nat) (tag : Byte) (body : List Byte) (rest : List Instr) (s : State),
    type < 256 → body.length ≤ Config.largestBody → s.powered = true → s.link.receiver = .hunt →
      Host.Core.run Sys2Proof.core (frameBytes type tag body).length
          ({ s with pending := (frameBytes type tag body).map (fun b => Instr.linkByte b true) ++ rest } : State) =
        exec (.intactFrame type tag body)
          { s with pending := rest, link := { s.link with receiver := .hunt, gap := none } }

/-! ### Invariants -/

/-- Every invariant below holds right after power-on. -/
def Obligations.InvariantsHoldAtReset : Prop :=
  State.reset.arraysSound ∧ State.reset.clocksCoherent ∧ State.reset.positionsSound ∧ State.reset.roundsSound ∧
    State.reset.eventsSound ∧ State.reset.link.sound ∧ State.reset.rotasSound ∧ State.reset.receiversSound ∧
    State.reset.directorySound ∧ State.reset.storeSound ∧ State.reset.fetchesSound ∧ State.reset.bindsSound ∧
    State.reset.workGranted ∧ State.reset.bindingsSound

/-- R1, R9, R12: every step keeps the arrays in canonical form. R24, R25, R50, R51: every step keeps the directory at
most 128 entries in ascending track ID. -/
def Obligations.EveryStepKeepsArraysAndDirectorySound : Prop :=
  (∀ s t : State, s.arraysSound → step s = .next t → t.arraysSound) ∧
    ∀ s t : State, s.directorySound → step s = .next t → t.directorySound

/-- R55, R62, R63: every step keeps each room's show state, hold-cause set, sync hold timer and chain in agreement. R53,
R57: it keeps each position in range, at or below the end position, and below it until the show ends. R130 to R132: it
keeps the rotation index equal to the round counter modulo 4, and rounds running exactly in rooms that are not DARK. -/
def Obligations.EveryStepKeepsTheRoomsSound : Prop :=
  (∀ s t : State, s.clocksCoherent → step s = .next t → t.clocksCoherent) ∧
  (∀ s t : State, s.positionsSound → step s = .next t → t.positionsSound) ∧
  (∀ s t : State, s.roundsSound → step s = .next t → t.roundsSound)

/-- R180 to R182: every step keeps the latches and the owed list sound. R171, R175: every step keeps at most eight
places held, at most 24 notices queued, and one queued reply for each answered command. -/
def Obligations.EveryStepKeepsEventsAndTheLinkSound : Prop :=
  (∀ s t : State, s.eventsSound → step s = .next t → t.eventsSound) ∧
    ∀ s t : State, s.link.sound → step s = .next t → t.link.sound

/-- R16, R17: every step keeps the free list, the clear queue, the retired list, the drain set, the tracks' segments
and the move targets of a bank disjoint, and in a mounted bank complete. With them it keeps what they rest on: the
directory and its moves and deletes (R24, R37, R40), the work in the array and waiting for it (R12, R14, R15, R32), and
the segments a mount has read (R47 to R51). -/
def Obligations.EveryStepKeepsTheStoreSound : Prop :=
  ∀ s t : State, s.storeSound → step s = .next t → t.storeSound

/-- R20, R81: while the store is sound, every step keeps each segment's reference count equal to the requests that name
it, one queued request for each issued fetch and none without, unless SOFT_RESET has stopped the banks and the request
has left undelivered (R7, R23), and the run count at most 8 (R13). R24, R76: it keeps
each track's bind count equal to the bindings that name it, and the tracks they name SEALED or MOVING in the directory.
-/
def Obligations.EveryStepKeepsTheFetchesSound : Prop :=
  ∀ s t : State, s.storeSound → s.fetchesSound → s.bindsSound → step s = .next t → t.fetchesSound ∧ t.bindsSound

/-- R92, R97 to R99, R105, R116: every step keeps each caption window at most 4 cues in order of start, each staging
list at most 8 in order, each feed queue within its bounds with only one message partly sent, each ring at most 8
entries, and at most 4 landing candidates. R7, R82, R111: the data of each page in hand stay as long as its fill mark,
a voice block 32 bytes. -/
def Obligations.EveryStepKeepsTheBindingsSound : Prop :=
  ∀ s t : State, s.bindingsSound → step s = .next t → t.bindingsSound

/-! ### The bank arbiter -/

/-- R13, R14: what an idle bank grants. With no work ready the oldest fetch, the run count becoming 0; with work ready
the oldest fetch while the run count is below 8, which it raises; otherwise the first ready work source from the
rotation pointer in the order LOAD, MOVE, CLEAR, the run count becoming 0 and the pointer moving past it. A mounting
bank grants the mount's next read alone; a busy or halted one nothing. A move step is ready when the target of its page
is held (R15). While the store is sound, every step leaves no idle bank with a claim. -/
def Obligations.BanksGrantInTurn : Prop :=
  (∀ (s : State) (k : BankNo),
    let b := s.banks[k]
    let t := s.arbitrate k
    let ready (w : Rotation) : Option Op := match w with
      | .load => b.loadBuf.map .pageWrite
      | .move => s.readyMove? k
      | .clear => b.clearQ.head?.map .clear
    let order : List Rotation := match b.rotation with
      | .load => [.load, .move, .clear]
      | .move => [.move, .clear, .load]
      | .clear => [.clear, .load, .move]
    let next (w : Rotation) : Rotation := match w with
      | .load => .move
      | .move => .clear
      | .clear => .load
    let grants (b' : Bank) : Prop := t = { s with banks := s.banks.set k b' }
    ((b.op ≠ none ∨ b.halted = true) → t = s) ∧
    (∀ m, b.op = none → b.halted = false → b.mount = some m → grants { b with op := m.nextOp? }) ∧
    (b.op = none → b.halted = false → b.mount = none →
      (∀ q rest, b.fetchQ = q :: rest → (∀ w, ready w = none) →
        grants { b with op := some (.fetch q), runCount := 0 }) ∧
      (∀ q rest w op, b.fetchQ = q :: rest → ready w = some op → b.runCount < 8 →
        grants { b with op := some (.fetch q), runCount := b.runCount + 1 }) ∧
      (∀ w op before later, order = before ++ w :: later → (∀ v ∈ before, ready v = none) → ready w = some op →
        (b.fetchQ = [] ∨ 8 ≤ b.runCount) →
        grants { b with
          op := some op, runCount := 0, rotation := next w, loadBuf := if w = .load then none else b.loadBuf }) ∧
      (b.fetchQ = [] → (∀ w, ready w = none) → t = s))) ∧
  (∀ (s : State) (k : BankNo) (tr : Track) (m : MoveProgress), s.movingTrack? k = some tr → tr.move = some m →
    (∀ src tgt, segOf? tr.segs m.next.ord = some src → segOf? m.targets m.next.ord = some tgt →
      s.readyMove? k = some (.moveStep tr.id src tgt m.next)) ∧
    (segOf? m.targets m.next.ord = none → s.readyMove? k = none)) ∧
  ∀ s t : State, s.storeSound → s.workGranted → step s = .next t → t.workGranted

/-- R146 to R148: every step keeps the rotas, cursors and urgent queues in agreement with the roster, and receiver IDs
unique. -/
def Obligations.EveryStepKeepsTheRosterSound : Prop :=
  (∀ s t : State, s.rotasSound → step s = .next t → t.rotasSound) ∧
    ∀ s t : State, s.receiversSound → step s = .next t → t.receiversSound

/-! ### Power -/

/-- A part without power takes nothing but POWER_ON, and of a pin it records what drives it from outside (log 3). R12:
a power failure leaves every block without power and keeps nothing but the arrays: as they were where a bank had no
operation, or a read; an interrupted write leaves every page and slot but its own, and its own blank, damaged, or a
page that fails its check; an interrupted clear leaves pages from the top unwritten. Which of these is left is the
row's choice (log 9). R167, R178, R22, R53, R72, R130, R146, R159, R186: what power-on leaves, at the rate of the
straps; that POWER_ON acts so in a part that has power too is log 7. -/
def Obligations.PowerFailsAndReturns : Prop :=
  ((∀ (c : Instr) (s : State), s.powered = false → (∀ b1 b0, c ≠ .powerOn b1 b0) → (∀ l d, c ≠ .pinLevelChange l d) →
     exec c s = .next s) ∧
   ∀ (l : LineNo) (d : Option Bool) (s : State), s.powered = false →
     exec (.pinLevelChange l d) s = .next { s with lines := s.lines.set l { s.lines[l] with outside := d } }) ∧
  (∀ (cut0 cut1 : ArrayCut) (s : State), s.powered = true → s.arraysSound →
     ∃ t, exec (.powerFail cut0 cut1) s = .next t ∧ PowerDownState s t ∧
       ∀ k : BankNo,
         let a := s.arrays[k]
         let b := t.arrays[k]
         let op := (s.banks[k]).op
         ((op = none ∨ (∃ q, op = some (.fetch q)) ∨ (∃ g p i, op = some (.tagRead g p i)) ∨
           ∃ g p, op = some (.pageRead g p)) → b = a) ∧
         (∀ lb, op = some (.pageWrite lb) → lb.inPage →
           sameOtherPages a b lb.seg lb.page ∧
             (∀ i, i < 4 → i ≠ lb.slot → b.slot lb.seg lb.page i = a.slot lb.seg lb.page i) ∧
             CutWrite a b lb.seg lb.page lb.slot) ∧
         (∀ g, op = some (.clear g) → CutClear a b g) ∧
         (∀ id src tgt page, op = some (.moveStep id src tgt page) → page.pg < 64 →
           (∀ fill raw, judgePage (a.view src page.pg) = some (fill, raw) → fill ≤ 2048) →
           sameOtherPages a b tgt page.pg ∧ (∀ i, 0 < i → i < 4 → b.slot tgt page.pg i = a.slot tgt page.pg i) ∧
             CutWrite a b tgt page.pg 0)) ∧
  (∀ (baud1 baud0 : Bool) (s : State), ∃ t, exec (.powerOn baud1 baud0) s = .next t ∧
     PowerOnState s t (match baud1, baud0 with
       | false, false => 115200
       | false, true => 460800
       | true, false => 921600
       | true, true => 1843200))

/-! ### The receiver and the transmitter -/

/-- R169: in HUNT a start byte without byte error starts a frame and every other byte is discarded; in FRAMING a byte
that neither spoils nor completes the frame is collected and the gap timer reloaded. R170: a byte error, a length out
of range, a check that does not match and the gap timer's expiry each abandon the frame, with one LINK_ERROR. The row of
the expiry happens at once, whatever the gap timer's count (the model's choice, log 4). -/
def Obligations.ReceiverCollectsOrAbandonsAFrame : Prop :=
  ((∀ s : State, s.powered = true → s.link.receiver = .hunt →
     exec (.linkByte 0xC5#8 true) s =
       .next { s with link := { s.link with receiver := .framing [0xC5#8], gap := some 192 } }) ∧
   (∀ (b : Byte) (ok : Bool) (s : State), s.powered = true → s.link.receiver = .hunt → (b ≠ 0xC5#8 ∨ ok = false) →
     exec (.linkByte b ok) s = .next s) ∧
   ∀ (b : Byte) (bytes : List Byte) (s : State), s.powered = true → s.link.receiver = .framing bytes →
     (bytes.length < 2 ∨
       (2 ≤ bytes.length ∧ 2 ≤ field (bytes ++ [b]) 1 2 ∧ field (bytes ++ [b]) 1 2 ≤ 2082 ∧
         bytes.length + 1 < field (bytes ++ [b]) 1 2 + 5)) →
     exec (.linkByte b true) s =
       .next { s with link := { s.link with receiver := .framing (bytes ++ [b]), gap := some 192 } }) ∧
  ((∀ (b : Byte) (bytes : List Byte) (s : State), s.powered = true → s.link.receiver = .framing bytes →
     ∃ t, exec (.linkByte b false) s = .next t ∧ Abandons s t) ∧
   (∀ (b : Byte) (bytes : List Byte) (s : State), s.powered = true → s.link.receiver = .framing bytes →
     bytes.length = 2 → (field (bytes ++ [b]) 1 2 < 2 ∨ 2082 < field (bytes ++ [b]) 1 2) →
     ∃ t, exec (.linkByte b true) s = .next t ∧ Abandons s t) ∧
   (∀ (b : Byte) (bytes : List Byte) (s : State), s.powered = true → s.link.receiver = .framing bytes →
     bytes.length + 1 = field (bytes ++ [b]) 1 2 + 5 →
     (crc (((bytes ++ [b]).drop 1).take (field (bytes ++ [b]) 1 2 + 2))).toNat ≠
       field (bytes ++ [b]) (field (bytes ++ [b]) 1 2 + 3) 2 →
     ∃ t, exec (.linkByte b true) s = .next t ∧ Abandons s t) ∧
   ∀ (n : Nat) (s : State), s.powered = true → s.link.gap = some n →
     ∃ t, exec .gapTimerExpiry s = .next t ∧ Abandons s t)

/-- R171, R172, R176: an intact frame is discarded while a soft reset waits, discarded with LINK_OVERRUN while eight
places are held, refused UNKNOWN_TYPE when its type names no command and BAD_LENGTH when its body does not have the
length of a command of fixed form. -/
def Obligations.IntactFramesAreJudged : Prop :=
  (∀ (type : Nat) (tag : Byte) (body : List Byte) (s : State), s.powered = true → s.link.resetting = true →
    exec (.intactFrame type tag body) s = .next s) ∧
  (∀ (type : Nat) (tag : Byte) (body : List Byte) (s : State), s.powered = true → s.link.resetting = false →
    8 ≤ s.link.inbound.length →
    ∃ t, exec (.intactFrame type tag body) s = .next t ∧ RaisedOnce s t (.device .linkOverrun) ∧
      sameOtherEvents s t (.device .linkOverrun) ∧ t.link.inbound = s.link.inbound ∧ t.rooms = s.rooms ∧
      t.lines = s.lines ∧ t.roster = s.roster ∧ sameStore s t ∧ sameReceiver s t ∧ sameOutside s t) ∧
  (∀ (type : Nat) (tag : Byte) (body : List Byte) (s : State), s.ready →
    type ∉ [0x01, 0x02, 0x03, 0x04, 0x05, 0x08, 0x09, 0x10, 0x11, 0x12, 0x13, 0x14, 0x15, 0x16, 0x17, 0x18, 0x19,
      0x1A, 0x20, 0x28, 0x29, 0x2A, 0x30, 0x31, 0x32, 0x33, 0x34, 0x35, 0x36, 0x40, 0x41, 0x42] →
    exec (.intactFrame type tag body) s = .next (s.refusedWith type tag .unknownType type)) ∧
  ∀ (tag : Byte) (body : List Byte) (s : State), s.ready →
    ∀ form ∈ [(0x01, 0), (0x02, 0), (0x03, 3), (0x04, 1), (0x05, 3), (0x08, 4), (0x09, 0), (0x10, 11), (0x11, 1),
      (0x12, 1), (0x13, 1), (0x14, 8), (0x15, 1), (0x16, 1), (0x17, 1), (0x18, 4), (0x19, 3), (0x1A, 1), (0x20, 79),
      (0x28, 7), (0x29, 2), (0x30, 7), (0x32, 6), (0x34, 2), (0x35, 2), (0x36, 0), (0x40, 8), (0x41, 4), (0x42, 3)],
      body.length ≠ form.2 →
      exec (.intactFrame form.1 tag body) s = .next (s.refusedWith form.1 tag .badLength body.length)

/-- R175, R177, R182: the departure of a reply frees its command's place, that of a REFUSED SOFT_RESET too; that of a
notice leaves room for the oldest owed one; that of the DONE of SOFT_RESET resets every block, the link rate and the
arrays being kept. With nothing queued no message can have left (log 3). R167, R168, R178: what the transmit line does
meanwhile. It is high while nothing is queued; while a message is sent, its frame's bytes go out back to back, each as
a low start bit, eight data bits from the least significant and a high stop bit, the bit reached being the one that the
link's rate gives for the base ticks passed (log 25). -/
def Obligations.MessageDepartures : Prop :=
  (∀ s : State, s.powered = true → s.link.outbound = [] → exec .messageSent s = .next s) ∧
  (∀ (s : State) (p : Nat) (tag : Byte) (done : Bool) (body : List Byte) (rest : List OutMsg), s.powered = true →
    s.link.outbound = .reply p tag done body :: rest →
    (done = false ∨ ∀ c ∈ s.link.inbound, c.place = p → c.type ≠ 0x02) →
    exec .messageSent s = .next { s with link := { s.link with
      outbound := rest, sendTicks := 0, inbound := s.link.inbound.filter (fun c => !decide (c.place = p)) } }) ∧
  (∀ (s : State) (e : EventId) (n : Nat) (rest : List OutMsg), s.powered = true →
    s.link.outbound = .notice e n :: rest → s.evu.owed = [] →
    exec .messageSent s = .next { s with link := { s.link with outbound := rest, sendTicks := 0 } }) ∧
  (∀ (s : State) (e o : EventId) (n : Nat) (rest : List OutMsg) (later : List EventId), s.powered = true →
    s.link.outbound = .notice e n :: rest → rest.countP OutMsg.isNotice = 23 → s.evu.owed = o :: later →
    ∃ t, exec .messageSent s = .next t ∧ t.evu.owed = later ∧
      t.link = { s.link with outbound := rest ++ [.notice o (s.evu.latch o).count], sendTicks := 0 } ∧
      t.evu.latch o = { s.evu.latch o with queued := true } ∧ sameOtherEvents s t o ∧ t.rooms = s.rooms ∧
      t.lines = s.lines ∧ t.roster = s.roster ∧ sameStore s t ∧ sameOutside s t) ∧
  (∀ (s : State) (p : Nat) (tag : Byte) (body : List Byte) (rest : List OutMsg) (c : Inbound), s.powered = true →
    s.link.outbound = .reply p tag true body :: rest → c ∈ s.link.inbound → c.place = p → c.type = 0x02 →
    ∃ t, exec .messageSent s = .next t ∧ PowerOnState s t s.link.rate) ∧
  (∀ (p : Nat) (tag : Byte) (done : Bool) (body : List Byte),
    let checked := u16 (body.length + 2) ++ [if done then 0x80#8 else 0x81#8, tag] ++ body
    (OutMsg.reply p tag done body).frame = [0xC5#8] ++ checked ++ u16 (crc checked).toNat) ∧
  (∀ (e : EventId) (n : Nat),
    let checked := u16 5 ++ [0x82#8, 0x00#8] ++ u8 e.scopeCode ++ u8 e.classCode ++ u8 n
    (OutMsg.notice e n).frame = [0xC5#8] ++ checked ++ u16 (crc checked).toNat) ∧
  (∀ l : Link, l.outbound = [] → l.transmitLine = true) ∧
  ∀ (l : Link) (m : OutMsg) (rest : List OutMsg), l.outbound = m :: rest →
    let bit := l.sendTicks * l.rate / 96000
    (∀ (i j : Nat) (b : Byte), j < 10 → bit = 10 * i + j → m.frame[i]? = some b →
      l.transmitLine = if j = 0 then false else if j = 9 then true else b.getLsbD (j - 1)) ∧
    (10 * m.frame.length ≤ bit → l.transmitLine = true)

/-! ### The link's and the event unit's commands -/

/-- R179, R188: the reply to IDENT; the revision is one value of 1 to 255 (log 12). R71, R59: ROOM_STATUS reports the
room, sync mode, declared rate, P and each divider with a presence byte; the form of the other items is log 14, the run
level with no run line is log 15. R166, R189: the reply to LINE_READ, line by line: pin level, direction in effect,
holder, blocked claims, plain setting. Each changes nothing. -/
def Obligations.IdentRoomStatusAndLineReadReport : Prop :=
  ((1 ≤ Config.revision ∧ Config.revision ≤ 255) ∧
   ∀ (tag : Byte) (s : State), s.ready →
     exec (.ident tag) s = .next (s.replied 0x01 tag true
       ([0x43#8, 0x5A#8, 0x44#8, 0x2D#8, 0x31#8, 0x36#8] ++ u8 Config.revision ++
         [2, 2048, 64, 2048, 4, 128, 256, 16, 4, 8, 4, 16, 4, 8, 40, 726, 32, 512, 48, 8, 32, 24, 2080].flatMap u16 ++
         u32 s.link.rate ++
         [if (s.banks[(0 : BankNo)]).mount = none ∧ (s.banks[(1 : BankNo)]).mount = none then 1#8 else 0#8]))) ∧
  (∀ (tag : Byte) (r : RoomNo) (s : State), s.ready →
     let c := s.clock r
     let opt (n : Nat) (v : Option Nat) : List Byte := match v with
       | none => 0#8 :: List.replicate n 0#8
       | some x => 1#8 :: beBytes n x
     let line (l : Option LineNo) : List Byte := match l with
       | none => [0xFF#8]
       | some x => u8 x.val
     exec (.roomStatus tag r.val) s = .next (s.replied 0x11 tag true
       (u8 c.show_.code ++ u24 c.pos ++ opt 3 c.endPos ++
         u8 (c.holds.host.toNat + 2 * c.holds.runLow.toNat + 4 * c.holds.syncLost.toNat) ++
         [1#8] ++ u8 c.mode.code ++ [1#8] ++ u8 c.rate ++ opt 2 c.p ++ opt 2 c.nominal ++ opt 2 c.current ++
         opt 2 c.pendingDiv ++
         flagByte (match c.runLine with
           | none => true
           | some l => decide (s.holder l = some (.runIn, r)) && (s.lines[l]).pin) ++
         flagByte c.syncTimer.isSome ++ line c.frameLine ++ line c.runLine ++ line c.emitLine ++ line c.tallyLine ++
         u8 c.channel ++ u8 c.carousel ++
         ([0, 1, 2, 3] : List BindNo).flatMap (fun i => u8 (s.binding r i).state.code ++
           u16 (match (s.binding r i).track with | .stored id => id | _ => 0)) ++
         flagByte (s.rooms[r]).comp.pendingMap.isSome))) ∧
  (∀ (tag : Byte) (s : State), s.ready →
     exec (.lineRead tag) s = .next (s.replied 0x09 tag true
       ((List.finRange 48).flatMap (fun l =>
         flagByte (s.lines[l]).pin ++
         (match s.holder l with
          | some (.frameIn, r) => [0#8] ++ u8 r.val ++ [0#8]
          | some (.runIn, r) => [0#8] ++ u8 r.val ++ [1#8]
          | some (.emitEnable, r) => [1#8] ++ u8 r.val ++ [2#8]
          | some (.tally, r) => [1#8] ++ u8 r.val ++ [3#8]
          | none => flagByte (s.lines[l]).dirOut ++ [0xFF#8, 0xFF#8]) ++
         u8 ((s.claimsOn l).length - 1) ++ flagByte (s.lines[l]).dirOut ++ flagByte (s.lines[l]).level ++
         (match (s.lines[l]).pull with | .none => [0#8] | .up => [1#8] | .down => [2#8])))) ∧
     (s.linesReport).length = 384)

/-- R176, R177, R23: SOFT_RESET goes to the head of the inbound queue, every other open command is discarded, the
banks grant nothing more; its DONE is queued at once when no operation is in either bank, and waits otherwise. -/
def Obligations.SoftResetStopsTheQueue : Prop :=
  ∀ (tag : Byte) (s : State), s.ready →
    (((s.banks[(0 : BankNo)]).op = none ∧ (s.banks[(1 : BankNo)]).op = none) →
      exec (.softReset tag) s = .next { s with
        link := { s.link with
          inbound := ⟨freePlace s.link.inbound, tag, 0x02, 0, true⟩ :: s.link.inbound.filter (fun c => c.answered)
          outbound := s.link.outbound ++ [.reply (freePlace s.link.inbound) tag true []]
          resetting := true }
        banks := s.banks.map (fun b => { b with halted := true }) }) ∧
    (((s.banks[(0 : BankNo)]).op ≠ none ∨ (s.banks[(1 : BankNo)]).op ≠ none) →
      exec (.softReset tag) s = .next { s with
        link := { s.link with
          inbound := ⟨freePlace s.link.inbound, tag, 0x02, 0, false⟩ :: s.link.inbound.filter (fun c => c.answered)
          resetting := true }
        banks := s.banks.map (fun b => { b with halted := true }) })

/-- R183 and R182: the switch and the mask are replaced, owed entries no longer enabled are removed, set latches newly
enabled are owed in order, and the owed list is served until 24 notices are queued. -/
def Obligations.NoticeSetReplacesSwitchAndMask : Prop :=
  (∀ (tag : Byte) (switch : Nat) (mask : BitVec 16) (s : State), s.ready →
    (1 < switch ∨ mask &&& 0xE000#16 ≠ 0#16) →
    exec (.noticeSet tag switch mask) s = .next (s.refusedWith 0x03 tag .badArg 0)) ∧
  ∀ (tag : Byte) (switch : Nat) (mask : BitVec 16) (s : State), s.ready → switch ≤ 1 → mask &&& 0xE000#16 = 0#16 →
    let on (e : EventId) : Bool := decide (switch = 1) && mask.getLsbD e.classCode
    let kept := s.evu.owed.filter on
    let newly := allEvents.filter (fun e =>
      (s.evu.latch e).set_ && !(s.evu.latch e).queued && !s.evu.enabled e && on e && !decide (e ∈ kept))
    let owed := kept ++ newly
    let served := min owed.length (24 - s.link.notices)
    ∃ t, exec (.noticeSet tag switch mask) s = .next t ∧
      t.evu.switch = decide (switch = 1) ∧ t.evu.mask = mask ∧ t.evu.owed = owed.drop served ∧
      (∀ e, t.evu.latch e =
        if e ∈ owed.take served then { s.evu.latch e with queued := true } else s.evu.latch e) ∧
      t.link.inbound = s.link.inbound ++ [⟨freePlace s.link.inbound, tag, 0x03, 0, true⟩] ∧
      t.link.outbound = s.link.outbound ++
        (owed.take served).map (fun e => OutMsg.notice e (s.evu.latch e).count) ++
        [.reply (freePlace s.link.inbound) tag true
          (flagByte (decide (switch = 1)) ++ u16 mask.toNat ++ u8 (owed.length - served))] ∧
      t.rooms = s.rooms ∧ t.lines = s.lines ∧ t.roster = s.roster ∧ sameStore s t ∧ sameReceiver s t ∧
      sameOutside s t

/-- R184: EVENTS_READ reports the latches of a scope, the switch and the mask, and changes nothing; a set latch goes on
counting without a notice. R185: EVENTS_CLEAR clears the named latches of a scope and their owed entries, and reports
them as they stood; the next raise of a cleared latch is a clear-to-set change again, with its notice or its owed entry
where it is enabled. The layout of the bodies is log 14. -/
def Obligations.EventsAreReadAndCleared : Prop :=
  ((∀ (tag : Byte) (scope : Nat) (s : State), s.ready → 16 < scope →
     exec (.eventsRead tag scope) s = .next (s.refusedWith 0x04 tag .badArg 0)) ∧
   (∀ (tag : Byte) (r : RoomNo) (s : State), s.ready →
     exec (.eventsRead tag r.val) s = .next (s.replied 0x04 tag true
       ([RoomClass.state, .syncLost, .underrun, .pageCheck, .feedOverflow, .liveSent, .lineConflict, .landed].flatMap
         (fun c => flagByte (s.evu.latch (.room r c)).set_ ++ u8 (s.evu.latch (.room r c)).count ++
           flagByte (decide (EventId.room r c ∈ s.evu.owed))) ++
         flagByte s.evu.switch ++ u16 s.evu.mask.toNat))) ∧
   (∀ (tag : Byte) (s : State), s.ready →
     exec (.eventsRead tag 16) s = .next (s.replied 0x04 tag true
       ([DeviceClass.linkError, .linkOverrun, .writeFail, .segmentsLow, .mountDone].flatMap
         (fun c => flagByte (s.evu.latch (.device c)).set_ ++ u8 (s.evu.latch (.device c)).count ++
           flagByte (decide (EventId.device c ∈ s.evu.owed))) ++
         flagByte s.evu.switch ++ u16 s.evu.mask.toNat))) ∧
   ∀ (s : State) (e : EventId), (s.evu.latch e).set_ = true →
     (s.raise e).link = s.link ∧ (s.raise e).evu.owed = s.evu.owed ∧ ((s.raise e).evu.latch e).set_ = true ∧
       ((s.raise e).evu.latch e).count = min 255 ((s.evu.latch e).count + 1)) ∧
  ((∀ (tag : Byte) (scope : Nat) (classes : BitVec 16) (s : State), s.ready →
     (16 < scope ∨ (scope < 16 ∧ classes &&& 0xFF00#16 ≠ 0#16) ∨ (scope = 16 ∧ classes &&& 0xE0FF#16 ≠ 0#16)) →
     exec (.eventsClear tag scope classes) s = .next (s.refusedWith 0x05 tag .badArg 0)) ∧
   (∀ (tag : Byte) (scope : Nat) (classes : BitVec 16) (s : State), s.ready →
     ((scope < 16 ∧ classes &&& 0xFF00#16 = 0#16) ∨ (scope = 16 ∧ classes &&& 0xE0FF#16 = 0#16)) →
     let named := allEvents.filter (fun e => decide (e.scopeCode = scope) && classes.getLsbD e.classCode)
     ∃ t, exec (.eventsClear tag scope classes) s = .next t ∧
       (∀ e, t.evu.latch e = if e ∈ named then ⟨false, 0, false⟩ else s.evu.latch e) ∧
       t.evu.owed = s.evu.owed.filter (fun e => !decide (e ∈ named)) ∧
       t.evu.switch = s.evu.switch ∧ t.evu.mask = s.evu.mask ∧
       t.link = s.link.replied 0x05 tag true
         (named.flatMap (fun e => flagByte (s.evu.latch e).set_ ++ u8 (s.evu.latch e).count)) ∧
       t.rooms = s.rooms ∧ t.lines = s.lines ∧ t.roster = s.roster ∧ sameStore s t ∧ sameOutside s t) ∧
   ∀ (s : State) (e : EventId), s.evu.latch e = ⟨false, 0, false⟩ →
     ((s.raise e).evu.latch e).set_ = true ∧ ((s.raise e).evu.latch e).count = 1 ∧
     (s.evu.enabled e = true → s.link.notices < 24 →
       (s.raise e).link.outbound = s.link.outbound ++ [.notice e 1] ∧ (s.raise e).evu.owed = s.evu.owed) ∧
     (s.evu.enabled e = true → 24 ≤ s.link.notices →
       (s.raise e).link = s.link ∧ (s.raise e).evu.owed = s.evu.owed ++ [e]) ∧
     (s.evu.enabled e = false → (s.raise e).link = s.link ∧ (s.raise e).evu.owed = s.evu.owed))

/-! ### Signal lines -/

/-- R159, R161: the holder of a line is its highest-ranked active claim, by function and then by room; a line has a
holder exactly when some claim on it is active. -/
def Obligations.HolderIsTheHighestRankedClaim : Prop :=
  ∀ (s : State) (l : LineNo),
    (∀ (f : LineFn) (r : RoomNo), s.holder l = some (f, r) →
      (s.clock r).lineOf f = some l ∧ (s.clock r).show_ ≠ .dark ∧
      ((f = .frameIn ∨ f = .runIn) → (s.clock r).mode = .external) ∧
      ∀ (g : LineFn) (q : RoomNo), (s.clock q).lineOf g = some l → (s.clock q).show_ ≠ .dark →
        ((g = .frameIn ∨ g = .runIn) → (s.clock q).mode = .external) →
        f.code < g.code ∨ (f = g ∧ r ≤ q)) ∧
    (s.holder l = none ↔
      ∀ (g : LineFn) (q : RoomNo), (s.clock q).lineOf g = some l → (s.clock q).show_ ≠ .dark →
        ¬((g = .frameIn ∨ g = .runIn) → (s.clock q).mode = .external))

/-- R160, R164: LINE_SET replaces the plain setting. An unheld line set OUT is driven to its level; one set IN takes
what drives it from outside, or its pull, or its last level. A line held by an output claim stays at the level the
claim drives; one held by an input claim takes the pull. The reply names the holder. Where the outside drives a line
that the part drives, the level is the part's (log 21); notices of the event come before the reply (log 19). -/
def Obligations.LineSetReplacesThePlainSetting : Prop :=
  (∀ (tag : Byte) (line direction level pull : Nat) (s : State), s.ready →
    (47 < line ∨ 1 < direction ∨ 1 < level ∨ 2 < pull) →
    exec (.lineSet tag line direction level pull) s = .next (s.refusedWith 0x08 tag .badArg 0)) ∧
  ∀ (tag : Byte) (l : LineNo) (direction level pull : Nat) (p : Pull) (s : State), s.ready → direction ≤ 1 →
    level ≤ 1 → p.code = pull →
    let released : Bool := match (s.lines[l]).outside, p with
      | some v, _ => v
      | none, .up => true
      | none, .down => false
      | none, .none => (s.lines[l]).pin
    let setTo (pin : Bool) : Line := ⟨decide (direction = 1), decide (level = 1), p, pin, (s.lines[l]).outside⟩
    (s.holder l = none →
      exec (.lineSet tag l.val direction level pull) s = .next { s with
        lines := s.lines.set l (setTo (if direction = 1 then decide (level = 1) else released))
        link := s.link.replied 0x08 tag true [0xFF#8, 0xFF#8] }) ∧
    (∀ r, s.holder l = some (.emitEnable, r) →
      exec (.lineSet tag l.val direction level pull) s = .next { s with
        lines := s.lines.set l (setTo true)
        link := s.link.replied 0x08 tag true (u8 r.val ++ [2#8]) }) ∧
    (∀ r, s.holder l = some (.tally, r) →
      exec (.lineSet tag l.val direction level pull) s = .next { s with
        lines := s.lines.set l (setTo (s.rooms[r]).tally)
        link := s.link.replied 0x08 tag true (u8 r.val ++ [3#8]) }) ∧
    (∀ f r, s.holder l = some (f, r) → (f = .frameIn ∨ f = .runIn) →
      ∃ t, exec (.lineSet tag l.val direction level pull) s = .next t ∧ t.lines[l] = setTo released ∧
        Answers s t 0x08 tag (u8 r.val ++ u8 f.code) ∧ sameReceiver s t ∧ t.roster = s.roster ∧ sameStore s t ∧
        sameOutside s t)

/-- R164: a change of what drives a pin from outside. An unheld line set IN takes it, or its pull, or its last level; a
line the part drives keeps the part's level (log 21); no room sees either. A line held by an input claim takes it. -/
def Obligations.PinChangesReachTheLine : Prop :=
  ∀ (l : LineNo) (drive : Option Bool) (s : State), s.powered = true →
    let line := s.lines[l]
    let released : Bool := match drive, line.pull with
      | some v, _ => v
      | none, .up => true
      | none, .down => false
      | none, .none => line.pin
    (s.holder l = none →
      exec (.pinLevelChange l drive) s = .next { s with
        lines := s.lines.set l { line with
          outside := drive, pin := if line.dirOut then line.level else released } }) ∧
    (∀ r, s.holder l = some (.emitEnable, r) →
      exec (.pinLevelChange l drive) s = .next { s with lines := s.lines.set l { line with outside := drive, pin := true } }) ∧
    (∀ r, s.holder l = some (.tally, r) →
      exec (.pinLevelChange l drive) s = .next { s with
        lines := s.lines.set l { line with outside := drive, pin := (s.rooms[r]).tally } }) ∧
    (∀ f r, s.holder l = some (f, r) → (f = .frameIn ∨ f = .runIn) →
      ∃ t, exec (.pinLevelChange l drive) s = .next t ∧ t.lines[l] = { line with outside := drive, pin := released } ∧
        t.link.inbound = s.link.inbound ∧ t.roster = s.roster ∧ sameStore s t ∧ sameReceiver s t ∧
        sameOtherRooms s t r ∧ sameOutside s t)

/-- R159, R161 to R163: a room that leaves DARK lays its claims. On a line without a holder the claim holds; a holder of
lower rank is blocked, with LINE_CONFLICT in its room's scope; below a holder of higher rank the claim is blocked, with
LINE_CONFLICT in its own room's. A room that enters DARK takes its claims away: the highest-ranked claim left holds the
line and nothing is raised, or the plain setting applies (log 21 where the outside drives an OUT line too). R59, R61: a
RUN_IN claim that is blocked is a run-line fall, and one that takes over a high line is a rise. -/
def Obligations.ClaimsConflictAndTakeOver : Prop :=
  (∀ (tag : Byte) (r : RoomNo) (pos : Nat) (s : State), s.ready → pos ≤ 16777214 → (s.clock r).show_ = .dark →
    (∃ i : BindNo, (s.binding r i).bound = true) →
    let claims (f : LineFn) (l : LineNo) : Prop := (s.clock r).lineOf f = some l ∧
      ((f = .frameIn ∨ f = .runIn) → (s.clock r).mode = .external)
    ∃ t, exec (.arm tag r.val pos 0 0) s = .next t ∧
      (∀ f l, claims f l → (∀ g, g ≠ f → (s.clock r).lineOf g ≠ some l) →
        (s.holder l = none → t.holder l = some (f, r) ∧ t.blockedOn l = 0) ∧
        (∀ g q, s.holder l = some (g, q) →
          ((f.code < g.code ∨ (f = g ∧ r < q)) → t.holder l = some (f, r) ∧
            (t.evu.latch (.room q .lineConflict)).set_ = true) ∧
          ((g.code < f.code ∨ (g = f ∧ q < r)) → t.holder l = some (g, q) ∧
            (t.evu.latch (.room r .lineConflict)).set_ = true) ∧
          t.blockedOn l = s.blockedOn l + 1)) ∧
      ((∀ f l, claims f l → s.holder l = none) →
        ∀ q : RoomNo, t.evu.latch (.room q .lineConflict) = s.evu.latch (.room q .lineConflict)) ∧
      (∀ (q : RoomNo) (l : LineNo), q ≠ r → claims .frameIn l → s.holder l = some (.runIn, q) →
        (s.lines[l]).pin = true → (s.clock q).show_ = .running →
        let c := s.clock q
        t.clock q = { c with
          show_ := .held, holds := { c.holds with runLow := true }, syncTimer := none,
          chain := (match c.chain with | .running pre div => .paused pre div | other => other) } ∧
        (t.evu.latch (.room q .state)).set_ = true)) ∧
  ∀ (tag : Byte) (r : RoomNo) (s : State), s.ready → ((s.clock r).show_ = .armed ∨ (s.clock r).show_ = .ended) →
    ∃ t, exec (.roomDark tag r.val) s = .next t ∧
      (∀ l : LineNo, t.claimsOn l = (s.claimsOn l).filter (fun x => decide (x.2 ≠ r)) ∧
        t.holder l = (t.claimsOn l).head?) ∧
      (∀ q : RoomNo, t.evu.latch (.room q .lineConflict) = s.evu.latch (.room q .lineConflict)) ∧
      (∀ (f : LineFn) (l : LineNo), (s.clock r).lineOf f = some l → t.holder l = none →
        let line := s.lines[l]
        (t.lines[l]).pin = if line.dirOut then line.level else
          (match line.outside, line.pull with
           | some v, _ => v
           | none, .up => true
           | none, .down => false
           | none, .none => line.pin)) ∧
      (∀ (f : LineFn) (l : LineNo) (q : RoomNo), s.holder l = some (f, r) → t.holder l = some (.runIn, q) →
        (s.lines[l]).outside = some true → (s.clock q).show_ = .held → (s.clock q).holds = ⟨false, true, false⟩ →
        (s.clock q).frameLine = none →
        let c := s.clock q
        t.clock q = { c with
          show_ := .running, holds := ⟨false, false, false⟩, syncTimer := some (288000 / c.rate),
          chain := (match c.chain with | .paused pre div => .running pre div | other => other) })

/-! ### Show clocks -/

/-- R54, R58, R64 to R71, R75, R77, R106, R137: a room number above 15 is refused BAD_ARG by every command of a room.
R25, R28, R29, R35, R37, R39, R45, R46, R75: while the store is mounting its commands and BIND are refused MOUNTING.
Nothing else changes. -/
def Obligations.RoomsAndTheMountRefuseWholeCommands : Prop :=
  (∀ (tag : Byte) (room : Nat) (s : State), s.ready → 15 < room →
     (∀ mode rate p fl rl el tl ch ca, exec (.roomSetup tag room mode rate p fl rl el tl ch ca) s =
       .next (s.refusedWith 0x10 tag .badArg 0)) ∧
     exec (.roomStatus tag room) s = .next (s.refusedWith 0x11 tag .badArg 0) ∧
     exec (.roomReset tag room) s = .next (s.refusedWith 0x12 tag .badArg 0) ∧
     exec (.roomDark tag room) s = .next (s.refusedWith 0x13 tag .badArg 0) ∧
     (∀ pos flag e, exec (.arm tag room pos flag e) s = .next (s.refusedWith 0x14 tag .badArg 0)) ∧
     exec (.go tag room) s = .next (s.refusedWith 0x15 tag .badArg 0) ∧
     exec (.hold tag room) s = .next (s.refusedWith 0x16 tag .badArg 0) ∧
     exec (.resume tag room) s = .next (s.refusedWith 0x17 tag .badArg 0) ∧
     (∀ pos, exec (.seek tag room pos) s = .next (s.refusedWith 0x18 tag .badArg 0)) ∧
     (∀ d, exec (.retrim tag room d) s = .next (s.refusedWith 0x19 tag .badArg 0)) ∧
     exec (.endShow tag room) s = .next (s.refusedWith 0x1A tag .badArg 0) ∧
     (∀ entries : List (Nat × Nat), entries.length = 39 →
       (∀ e ∈ entries, (e.1 ≤ 4 ∨ e.1 = 8) ∧ (e.2 ≤ 4 ∨ e.2 = 8)) →
       exec (.slotMap tag room entries) s = .next (s.refusedWith 0x20 tag .badArg 0)) ∧
     (∀ b id lang, exec (.bindTrack tag room b id lang) s = .next (s.refusedWith 0x28 tag .badArg 0)) ∧
     (∀ b, exec (.unbind tag room b) s = .next (s.refusedWith 0x29 tag .badArg 0)) ∧
     (∀ b h n text, exec (.liveText tag room b h n text) s = .next (s.refusedWith 0x2A tag .badArg 0)) ∧
     (∀ b z v rcv, exec (.assign tag rcv room b z v) s = .next (s.refusedWith 0x40 tag .badArg 0))) ∧
  (∀ (tag : Byte) (s : State), s.ready → s.mounting = true →
     (∀ id kind lang bank, exec (.trackCreate tag id kind lang bank) s = .next (s.refusedWith 0x30 tag .mounting 0)) ∧
     (∀ id ex data, 1 ≤ data.length → data.length ≤ 2048 →
       exec (.trackWrite tag id ex data) s = .next (s.refusedWith 0x31 tag .mounting 0)) ∧
     (∀ id ex, exec (.trackSeal tag id ex) s = .next (s.refusedWith 0x32 tag .mounting 0)) ∧
     (∀ id ps, ps.length ≤ 16 → exec (.trackMove tag id ps) s = .next (s.refusedWith 0x33 tag .mounting 0)) ∧
     (∀ id, exec (.trackDelete tag id) s = .next (s.refusedWith 0x34 tag .mounting 0)) ∧
     (∀ id, exec (.trackInfo tag id) s = .next (s.refusedWith 0x35 tag .mounting 0)) ∧
     exec (.storeInfo tag) s = .next (s.refusedWith 0x36 tag .mounting 0) ∧
     ∀ (r : RoomNo) (i : BindNo) id lang, (id = 0 → Machine.Lang.valid lang = true) →
       exec (.bindTrack tag r.val i.val id lang) s = .next (s.refusedWith 0x28 tag .mounting 0))

/-- R54: ROOM_SETUP is refused out of DARK, at its first field out of range, for an INTERNAL rate that does not divide,
and for another room's channel; otherwise the setup is replaced as a whole and the nominal divider reported. Which
fields of the reply carry a presence byte is log 14. -/
def Obligations.RoomSetupReplacesTheSetup : Prop :=
  ∀ (tag : Byte) (r : RoomNo) (mode rate p fl rl el tl ch ca : Nat) (s : State), s.ready →
    let c := s.clock r
    let d := 96000 / (rate * p)
    let divides : Prop := 2 ≤ p ∧ p ≤ 65535 ∧ 96000 % (rate * p) = 0 ∧ 2 ≤ d ∧ d ≤ 65535
    let lineOk (v : Nat) : Prop := v < 48 ∨ v = 255
    let apart (v w : Nat) : Prop := v = w → v = 255
    let rateOk : Prop := 20 ≤ rate ∧ rate ≤ 120
    let runOk : Prop := lineOk rl ∧ apart rl fl
    let emitOk : Prop := lineOk el ∧ apart el fl ∧ apart el rl
    let tallyOk : Prop := lineOk tl ∧ apart tl fl ∧ apart tl rl ∧ apart tl el
    let channelOk : Prop := 1 ≤ ch ∧ ch ≤ 32
    let carouselOk : Prop := 10 ≤ ca ∧ ca ≤ 250
    let inRange : Prop := mode ≤ 1 ∧ rateOk ∧ lineOk fl ∧ runOk ∧ emitOk ∧ tallyOk ∧ channelOk ∧ carouselOk
    let cmd := Instr.roomSetup tag r.val mode rate p fl rl el tl ch ca
    (c.show_ ≠ .dark → exec cmd s = .next (s.refusedWith 0x10 tag .badState 0)) ∧
    (c.show_ = .dark →
      let refusedAt (n : Nat) : Prop := exec cmd s = .next (s.refusedWith 0x10 tag .badArg n)
      (1 < mode → refusedAt 2) ∧ (mode ≤ 1 → ¬rateOk → refusedAt 3) ∧ (mode ≤ 1 → rateOk → ¬lineOk fl → refusedAt 5) ∧
      (mode ≤ 1 → rateOk → lineOk fl → ¬runOk → refusedAt 6) ∧
      (mode ≤ 1 → rateOk → lineOk fl → runOk → ¬emitOk → refusedAt 7) ∧
      (mode ≤ 1 → rateOk → lineOk fl → runOk → emitOk → ¬tallyOk → refusedAt 8) ∧
      (mode ≤ 1 → rateOk → lineOk fl → runOk → emitOk → tallyOk → ¬channelOk → refusedAt 9) ∧
      (mode ≤ 1 → rateOk → lineOk fl → runOk → emitOk → tallyOk → channelOk → ¬carouselOk → refusedAt 10)) ∧
    (c.show_ = .dark → inRange → mode = 1 → ¬divides → exec cmd s = .next (s.refusedWith 0x10 tag .badArg 0)) ∧
    (c.show_ = .dark → inRange → (mode = 1 → divides) →
      (∀ q : RoomNo, q ≠ r → (s.clock q).channel = ch →
        (∀ q' : RoomNo, q' ≠ r → (s.clock q').channel = ch → q ≤ q') →
        exec cmd s = .next (s.refusedWith 0x10 tag .inUse q.val)) ∧
      ((∀ q : RoomNo, q ≠ r → (s.clock q).channel ≠ ch) →
        exec cmd s = .next { s with
          rooms := s.rooms.set r { s.rooms[r] with clock := { c with
            mode := if mode = 1 then .internal else .external
            rate := rate
            p := if mode = 1 then some p else none
            nominal := if mode = 1 then some d else none
            current := if mode = 1 then some d else none
            pendingDiv := none
            frameLine := if h : fl < 48 then some ⟨fl, h⟩ else none
            runLine := if h : rl < 48 then some ⟨rl, h⟩ else none
            emitLine := if h : el < 48 then some ⟨el, h⟩ else none
            tallyLine := if h : tl < 48 then some ⟨tl, h⟩ else none
            channel := ch
            carousel := ca } }
          link := s.link.replied 0x10 tag true (if mode = 1 then 1#8 :: u16 d else [0#8, 0#8, 0#8]) }))

/-- R58, R114 to R117, R131: an accepted ARM arms the room at the position, starts its rounds where it was DARK, and
repositions every bound binding: a new generation, empty lists and feeds but for one WIPE, a LIVE binding landed, a
TEXT or VOICE one PRIMING with its landing scan begun and page 0 of its start segment requested. An end field that is
not all 00h beside presence byte 00h is ignored (log 33); notices of the event come before the reply (log 19); where
the outside drives the emit line too its level is the part's (log 21). What the room's claims do to the lines is
another statement's. -/
def Obligations.ArmArmsTheRoom : Prop :=
  ∀ (tag : Byte) (r : RoomNo) (pos flag e : Nat) (s : State), s.ready →
    let c := s.clock r
    let good : Prop := pos ≤ 16777214 ∧ (flag = 0 ∨ (flag = 1 ∧ pos < e ∧ e ≤ 16777215))
    (¬good → exec (.arm tag r.val pos flag e) s = .next (s.refusedWith 0x14 tag .badArg 0)) ∧
    (good → (((c.show_ ≠ .dark ∧ c.show_ ≠ .ended) ∨ ∀ i : BindNo, (s.binding r i).bound = false)) →
      exec (.arm tag r.val pos flag e) s = .next (s.refusedWith 0x14 tag .badState 0)) ∧
    (good → (c.show_ = .dark ∨ c.show_ = .ended) → (∃ i : BindNo, (s.binding r i).bound = true) →
      ∃ t, exec (.arm tag r.val pos flag e) s = .next t ∧ Answers s t 0x14 tag [] ∧
        t.clock r = { c with
          show_ := .armed, pos := pos, endPos := if flag = 1 then some e else none, holds := ⟨false, false, false⟩,
          current := c.nominal, pendingDiv := none, chain := .stopped, syncTimer := none } ∧
        RaisedOnce s t (.room r .state) ∧
        (c.show_ = .dark → (t.rooms[r]).comp =
          { (s.rooms[r]).comp with counter := 0, rotation := 0, roundTimer := some 1 }) ∧
        (c.show_ = .ended → (t.rooms[r]).comp = (s.rooms[r]).comp) ∧
        RoomRepositioned s t r pos ∧
        (c.show_ = .dark → ∀ l, c.emitLine = some l → t.holder l = some (.emitEnable, r) → (t.lines[l]).pin = true) ∧
        (∀ q : RoomNo, q ≠ r → (t.rooms[q]).comp = (s.rooms[q]).comp ∧ (t.rooms[q]).ring = (s.rooms[q]).ring) ∧
        t.roster = s.roster ∧ t.tracks = s.tracks ∧ t.arrays = s.arrays ∧ sameReceiver s t ∧ sameOutside s t)

/-- R64: GO starts the chain of an ARMED INTERNAL room afresh from P and D; the position is unchanged. R66: HOLD adds
HOST: a RUNNING room becomes HELD, its timer disarmed and its chain stopped with both counts kept; a HELD room stays
HELD and raises nothing. RESUME removes HOST and reports the set left: a HELD room whose set becomes empty becomes
RUNNING, its timer reloaded (EXTERNAL) or its chain going on (INTERNAL); any other room keeps its state. R65: RETRIM is
judged in order; an accepted value becomes the pending divider and nothing else changes. At the next divider expiry it
becomes the current divider, also for a room whose chain stopped in HELD. Notices of an event come before its reply
(log 19). -/
def Obligations.GoHoldResumeAndRetrimMoveTheClock : Prop :=
  (∀ (tag : Byte) (r : RoomNo) (s : State), s.ready →
     let c := s.clock r
     ((c.mode = .external ∨ c.show_ ≠ .armed) →
       exec (.go tag r.val) s = .next (s.refusedWith 0x15 tag .badState 0)) ∧
     (c.mode = .internal → c.show_ = .armed →
       ∃ t, exec (.go tag r.val) s = .next t ∧ Answers s t 0x15 tag [] ∧
         t.clock r = { c with
           show_ := .running, holds := ⟨false, false, false⟩, current := c.nominal, syncTimer := none,
           chain := .running (c.p.getD 0) (c.nominal.getD 0) } ∧
         RaisedOnce s t (.room r .state) ∧ sameOtherEvents s t (.room r .state) ∧
         Room.sameButClock s.rooms[r] t.rooms[r] ∧ sameOtherRooms s t r ∧
         (∀ l : LineNo, s.holder l ≠ some (.tally, r) → t.lines[l] = s.lines[l]) ∧
         t.roster = s.roster ∧ sameStore s t ∧ sameReceiver s t ∧ sameOutside s t)) ∧
  ((∀ (tag : Byte) (r : RoomNo) (s : State), s.ready →
      let c := s.clock r
      (c.show_ ≠ .running → c.show_ ≠ .held → exec (.hold tag r.val) s = .next (s.refusedWith 0x16 tag .badState 0)) ∧
      (c.show_ = .held → exec (.hold tag r.val) s = .next { s with
        rooms := s.rooms.set r { s.rooms[r] with clock := { c with holds := { c.holds with host := true } } }
        link := s.link.replied 0x16 tag true [] }) ∧
      (c.show_ = .running →
        ∃ t, exec (.hold tag r.val) s = .next t ∧ Answers s t 0x16 tag [] ∧
          t.clock r = { c with
            show_ := .held, holds := { c.holds with host := true }, syncTimer := none,
            chain := (match c.chain with | .running pre div => .paused pre div | other => other) } ∧
          RaisedOnce s t (.room r .state) ∧ sameOtherEvents s t (.room r .state) ∧
          Room.sameButClock s.rooms[r] t.rooms[r] ∧ sameOtherRooms s t r ∧
          (∀ l : LineNo, s.holder l ≠ some (.tally, r) → t.lines[l] = s.lines[l]) ∧
          t.roster = s.roster ∧ sameStore s t ∧ sameReceiver s t ∧ sameOutside s t)) ∧
   (∀ (tag : Byte) (r : RoomNo) (s : State), s.ready →
      let c := s.clock r
      (c.show_ ≠ .running → c.show_ ≠ .held → exec (.resume tag r.val) s = .next (s.refusedWith 0x17 tag .badState 0)) ∧
      (c.show_ = .running → exec (.resume tag r.val) s = .next (s.replied 0x17 tag true (u8 c.holds.code))) ∧
      (c.show_ = .held → (c.holds.runLow = true ∨ c.holds.syncLost = true) →
        exec (.resume tag r.val) s = .next { s with
          rooms := s.rooms.set r { s.rooms[r] with clock := { c with holds := { c.holds with host := false } } }
          link := s.link.replied 0x17 tag true (u8 (2 * c.holds.runLow.toNat + 4 * c.holds.syncLost.toNat)) }) ∧
      (c.show_ = .held → c.holds.runLow = false → c.holds.syncLost = false →
        ∃ t, exec (.resume tag r.val) s = .next t ∧ Answers s t 0x17 tag [0#8] ∧
          t.clock r = { c with
            show_ := .running, holds := ⟨false, false, false⟩,
            syncTimer := if c.mode = .external then some (288000 / c.rate) else none,
            chain := (match c.chain with | .paused pre div => .running pre div | other => other) } ∧
          RaisedOnce s t (.room r .state) ∧ sameOtherEvents s t (.room r .state) ∧
          Room.sameButClock s.rooms[r] t.rooms[r] ∧ sameOtherRooms s t r ∧
          (∀ l : LineNo, s.holder l ≠ some (.tally, r) → t.lines[l] = s.lines[l]) ∧
          t.roster = s.roster ∧ sameStore s t ∧ sameReceiver s t ∧ sameOutside s t))) ∧
  ((∀ (tag : Byte) (r : RoomNo) (value : Nat) (s : State), s.ready →
     let c := s.clock r
     let d := c.nominal.getD 0
     let good : Prop := 2 ≤ value ∧ value ≤ 65535 ∧ 98 * d ≤ 100 * value ∧ 100 * value ≤ 102 * d
     ((c.mode = .external ∨ (c.show_ ≠ .running ∧ c.show_ ≠ .held)) →
       exec (.retrim tag r.val value) s = .next (s.refusedWith 0x19 tag .badState 0)) ∧
     (c.mode = .internal → (c.show_ = .running ∨ c.show_ = .held) → ¬good →
       exec (.retrim tag r.val value) s = .next (s.refusedWith 0x19 tag .badArg 0)) ∧
     (c.mode = .internal → (c.show_ = .running ∨ c.show_ = .held) → good →
       exec (.retrim tag r.val value) s = .next { s with
         rooms := s.rooms.set r { s.rooms[r] with clock := { c with pendingDiv := some value } }
         link := s.link.replied 0x19 tag true [] })) ∧
   ∀ (r : RoomNo) (s : State) (v : Nat), (s.clock r).pendingDiv = some v →
     ((s.dividerExpiry r).clock r).current = some v ∧ ((s.dividerExpiry r).clock r).pendingDiv = none)

/-- R67, R114 to R117: an accepted SEEK sets the position and repositions every bound binding, in any of its states, as
an ARM does; an ENDED room becomes ARMED, any other keeps its show state, causes, end position, chain and timer.
Notices of the event come before the reply (log 19). -/
def Obligations.SeekSetsThePosition : Prop :=
  ∀ (tag : Byte) (r : RoomNo) (pos : Nat) (s : State), s.ready →
    let c := s.clock r
    let good : Prop := pos ≤ 16777214 ∧ ∀ e, c.endPos = some e → pos < e
    (¬good → exec (.seek tag r.val pos) s = .next (s.refusedWith 0x18 tag .badArg 0)) ∧
    (good → c.show_ = .dark → exec (.seek tag r.val pos) s = .next (s.refusedWith 0x18 tag .badState 0)) ∧
    (good → c.show_ ≠ .dark →
      ∃ t, exec (.seek tag r.val pos) s = .next t ∧ Answers s t 0x18 tag [] ∧
        (c.show_ ≠ .ended → t.clock r = { c with pos := pos } ∧
          t.evu.latch (.room r .state) = s.evu.latch (.room r .state)) ∧
        (c.show_ = .ended → t.clock r = { c with
            show_ := .armed, pos := pos, holds := ⟨false, false, false⟩, chain := .stopped, syncTimer := none } ∧
          RaisedOnce s t (.room r .state)) ∧
        RoomRepositioned s t r pos ∧
        (t.rooms[r]).comp = (s.rooms[r]).comp ∧ (t.rooms[r]).ring = (s.rooms[r]).ring ∧ sameOtherRooms s t r ∧
        t.roster = s.roster ∧ t.tracks = s.tracks ∧ t.arrays = s.arrays ∧ sameReceiver s t ∧ sameOutside s t)

/-- R68, R79, R104: END takes an ARMED, RUNNING or HELD room to ENDED, its position kept, its bindings unloaded and the
feeds and windows of its bound text and LIVE bindings replaced by one WIPE. Notices of the event come before the reply
(log 19). -/
def Obligations.EndEndsTheShow : Prop :=
  ∀ (tag : Byte) (r : RoomNo) (s : State), s.ready →
    let c := s.clock r
    ((c.show_ = .dark ∨ c.show_ = .ended) → exec (.endShow tag r.val) s = .next (s.refusedWith 0x1A tag .badState 0)) ∧
    (c.show_ ≠ .dark → c.show_ ≠ .ended →
      ∃ t, exec (.endShow tag r.val) s = .next t ∧ Answers s t 0x1A tag [] ∧
        t.clock r = { c with
          show_ := .ended, holds := ⟨false, false, false⟩, chain := .stopped, syncTimer := none } ∧
        RaisedOnce s t (.room r .state) ∧ sameOtherEvents s t (.room r .state) ∧
        (∀ i : BindNo,
          let b := s.binding r i
          let b' := t.binding r i
          b'.gen = b.gen ∧ b'.track = b.track ∧ b'.kind = b.kind ∧
          ((b.state = .priming ∨ b.state = .playing ∨ b.state = .starved) →
            b'.state = .playing ∧ b'.loaded = false ∧ b'.serve = none ∧ b'.fetch = .empty ∧ b'.staging = [] ∧
              b'.clip = none ∧ b'.nextClip = .none ∧ b'.scan = none) ∧
          (b.state = .finished → b'.state = .finished ∧ b'.serve = none) ∧
          (b.state = .faulted → b'.state = .faulted) ∧
          ((b.state = .unbound ∨ b.state = .unbinding) → b' = b) ∧
          (b.bound = true → (b.kind = some .text ∨ b.kind = some .live) →
            b'.prompt = [⟨.wipe, 0⟩] ∧ b'.rept = [] ∧ b'.window = [])) ∧
        (t.rooms[r]).comp = (s.rooms[r]).comp ∧ (t.rooms[r]).ring = (s.rooms[r]).ring ∧ sameOtherRooms s t r ∧
        (∀ l : LineNo, s.holder l ≠ some (.tally, r) → t.lines[l] = s.lines[l]) ∧
        t.roster = s.roster ∧ sameStore s t ∧ sameReceiver s t ∧ sameOutside s t)

/-- R69, R79, R131, R157, R163: ROOM_DARK takes an ARMED or ENDED room out of service: its claims and rounds end, its
bindings stay bound with empty feeds and windows, its emitter port is low, and its RELEASING entries and pending
forwards are gone while every other entry is kept. Notices of the event come before the reply (log 19). -/
def Obligations.RoomDarkTakesTheRoomOutOfService : Prop :=
  ∀ (tag : Byte) (r : RoomNo) (s : State), s.ready →
    let c := s.clock r
    (c.show_ ≠ .armed → c.show_ ≠ .ended → exec (.roomDark tag r.val) s = .next (s.refusedWith 0x13 tag .badState 0)) ∧
    ((c.show_ = .armed ∨ c.show_ = .ended) →
      ∃ t, exec (.roomDark tag r.val) s = .next t ∧ Answers s t 0x13 tag [] ∧
        t.clock r = { c with
          show_ := .dark, holds := ⟨false, false, false⟩, chain := .stopped, syncTimer := none } ∧
        RaisedOnce s t (.room r .state) ∧
        (t.rooms[r]).comp = { (s.rooms[r]).comp with
          roundTimer := none, tx := none, pendingMap := none,
          active := (s.rooms[r]).comp.pendingMap.getD (s.rooms[r]).comp.active } ∧
        (∀ i : BindNo,
          let b := s.binding r i
          let b' := t.binding r i
          (b.bound = true → b'.bound = true ∧ b'.track = b.track ∧ b'.gen = b.gen ∧ b'.prompt = [] ∧ b'.rept = [] ∧
            b'.window = [] ∧ b'.fetch = .empty ∧ b'.serve = none) ∧
          (b.state = .unbinding → b'.state = .unbound ∧ b'.prompt = []) ∧ (b.state = .unbound → b' = b)) ∧
        (∀ (l : LineNo) (f : LineFn), (f, r) ∉ t.claimsOn l) ∧
        t.emitterPort r = false ∧
        (∀ (i : RosterIx) (e : RosterEntry), t.roster[i] = some e →
          ¬(e.releasing = true ∧ e.room = r) ∧ e.former ≠ some r) ∧
        (∀ (i : RosterIx) (e : RosterEntry), s.roster[i] = some e → ¬(e.releasing = true ∧ e.room = r) →
          t.roster[i] = some (e.pathClosed r)) ∧
        (∀ q : RoomNo, q ≠ r → (t.rooms[q]).comp = (s.rooms[q]).comp ∧ (t.rooms[q]).ring = (s.rooms[q]).ring) ∧
        sameStore s t ∧ sameReceiver s t ∧ sameOutside s t)

/-- R70, R78, R105, R130, R157, R186: ROOM_RESET takes a room to DARK from any state: its bindings are UNBOUND, its map
the default one, its ring empty, its emitter port low, its roster entries free and its latches clear; its setup and
position are kept, and so is every entry of another room. Notices of the event come before the reply (log 19). -/
def Obligations.RoomResetClearsTheRoom : Prop :=
  ∀ (tag : Byte) (r : RoomNo) (s : State), s.ready →
    let c := s.clock r
    ∃ t, exec (.roomReset tag r.val) s = .next t ∧ Answers s t 0x12 tag [] ∧
      t.clock r = { c with
        show_ := .dark, endPos := none, holds := ⟨false, false, false⟩, current := c.nominal, pendingDiv := none,
        chain := .stopped, syncTimer := none } ∧
      (∀ i : BindNo, (t.binding r i).state = .unbound ∧
        ((s.binding r i).state ≠ .unbound → (t.binding r i).gen = (s.binding r i).gen + 1 ∧
          (t.binding r i).track = .none ∧ (t.binding r i).prompt = [] ∧ (t.binding r i).window = [])) ∧
      (t.rooms[r]).ring = [] ∧ (t.rooms[r]).liveSerial = 1 ∧
      (t.rooms[r]).comp = { (s.rooms[r]).comp with
        roundTimer := none, tx := none, active := SlotMap.default, pendingMap := none } ∧
      (∀ cl : RoomClass, t.evu.latch (.room r cl) = ⟨false, 0, false⟩ ∧ EventId.room r cl ∉ t.evu.owed) ∧
      (∀ (l : LineNo) (f : LineFn), (f, r) ∉ t.claimsOn l) ∧
      t.emitterPort r = false ∧
      (∀ (i : RosterIx) (e : RosterEntry), t.roster[i] = some e → e.room ≠ r ∧ e.former ≠ some r) ∧
      (∀ (i : RosterIx) (e : RosterEntry), s.roster[i] = some e → e.room ≠ r → t.roster[i] = some (e.pathClosed r)) ∧
      (∀ (id : Nat) (tr : Track), s.track? id = some tr →
        t.track? id = some { tr with bindCount := tr.bindCount -
          (([0, 1, 2, 3] : List BindNo).filter (fun i => decide ((s.binding r i).track = .stored id))).length }) ∧
      (∀ q : RoomNo, q ≠ r → (t.rooms[q]).comp = (s.rooms[q]).comp ∧ (t.rooms[q]).ring = (s.rooms[q]).ring) ∧
      t.banks = s.banks ∧ t.arrays = s.arrays ∧ sameReceiver s t ∧ sameOutside s t

/-- R59, R60, R57: a frame pulse, the room's FRAME_IN claim holding the line and its run level being high, is counted
by an ARMED, a RUNNING and a HELD {SYNC_LOST} room; any other set of causes, and a low run level, leave the clock. The
frame that reaches the end ends the show, STATE being raised once from RUNNING and twice where the room begins to run
with it. A pulse on a pin that stood high is its fall and its rise (log 3). -/
def Obligations.FramePulsesAreCounted : Prop :=
  ∀ (r : RoomNo) (l : LineNo) (s : State), s.powered = true → (s.clock r).mode = .external →
    (s.clock r).frameLine = some l → s.holder l = some (.frameIn, r) →
    let c := s.clock r
    let last : Prop := c.pos + 1 = c.endPos.getD 16777215
    ∃ t, exec (.framePulse r) s = .next t ∧ (t.lines[l]).pin = true ∧
      (s.runLevel r = false → t.clock r = c) ∧
      (s.runLevel r = true → ¬last → c.show_ = .running →
        t.clock r = { c with pos := c.pos + 1, syncTimer := some (288000 / c.rate) } ∧ t.evu = s.evu) ∧
      (s.runLevel r = true → ¬last → (c.show_ = .armed ∨ (c.show_ = .held ∧ c.holds = ⟨false, false, true⟩)) →
        (t.clock r).show_ = .running ∧ (t.clock r).pos = c.pos + 1 ∧ (t.clock r).holds = ⟨false, false, false⟩ ∧
          (t.clock r).syncTimer = some (288000 / c.rate) ∧ RaisedOnce s t (.room r .state)) ∧
      (s.runLevel r = true → c.show_ = .held → c.holds ≠ ⟨false, false, true⟩ → t.clock r = c) ∧
      (s.runLevel r = true → last → c.show_ = .running →
        (t.clock r).show_ = .ended ∧ (t.clock r).pos = c.pos + 1 ∧ (t.clock r).syncTimer = none ∧
          RaisedOnce s t (.room r .state)) ∧
      (s.runLevel r = true → last → (c.show_ = .armed ∨ (c.show_ = .held ∧ c.holds = ⟨false, false, true⟩)) →
        (t.clock r).show_ = .ended ∧ (t.clock r).pos = c.pos + 1 ∧ (t.clock r).syncTimer = none ∧
          (t.clock r).holds = ⟨false, false, false⟩ ∧ RaisedTwice s t (.room r .state)) ∧
      ((c.show_ = .dark ∨ c.show_ = .ended) → t.clock r = c) ∧
      sameOtherRooms s t r ∧ t.link.inbound = s.link.inbound ∧ t.roster = s.roster ∧ sameStore s t ∧
      sameReceiver s t ∧ sameOutside s t

/-- R61: a run-line fall adds RUN_LOW to a RUNNING or HELD room and a rise removes it; the room is HELD while its set
is not empty, its timer reloaded when it runs again; an ARMED or ENDED room sees nothing. A RUN_LINE_CHANGE to the
level the pin already has, and one without the claim, change nothing (log 3). -/
def Obligations.RunLineChangesHoldAndRelease : Prop :=
  (∀ (r : RoomNo) (l : LineNo) (level : Bool) (s : State), s.powered = true → (s.clock r).mode = .external →
     (s.clock r).runLine = some l → s.holder l = some (.runIn, r) → (s.lines[l]).pin ≠ level →
     let c := s.clock r
     ∃ t, exec (.runLineChange r level) s = .next t ∧ (t.lines[l]).pin = level ∧
       (level = false → c.show_ = .running →
         t.clock r = { c with
           show_ := .held, holds := { c.holds with runLow := true }, syncTimer := none,
           chain := (match c.chain with | .running pre div => .paused pre div | other => other) } ∧
         RaisedOnce s t (.room r .state)) ∧
       (level = false → c.show_ = .held →
         t.clock r = { c with holds := { c.holds with runLow := true } } ∧ t.evu = s.evu) ∧
       (level = true → c.show_ = .held → c.holds.host = false → c.holds.syncLost = false →
         (t.clock r).show_ = .running ∧ (t.clock r).holds = ⟨false, false, false⟩ ∧
           (t.clock r).syncTimer = some (288000 / c.rate) ∧ (t.clock r).pos = c.pos ∧ RaisedOnce s t (.room r .state)) ∧
       (level = true → c.show_ = .held → (c.holds.host = true ∨ c.holds.syncLost = true) →
         t.clock r = { c with holds := { c.holds with runLow := false } } ∧ t.evu = s.evu) ∧
       ((c.show_ = .armed ∨ c.show_ = .ended) → t.clock r = c ∧ t.evu = s.evu) ∧
       sameOtherRooms s t r ∧ t.link.inbound = s.link.inbound ∧ t.roster = s.roster ∧ sameStore s t ∧
       sameReceiver s t ∧ sameOutside s t) ∧
  ∀ (r : RoomNo) (level : Bool) (s : State), s.powered = true →
    (∀ l, (s.clock r).runLine = some l → s.holder l ≠ some (.runIn, r) ∨ (s.lines[l]).pin = level) →
    exec (.runLineChange r level) s = .next s

/-- R62: when the sync hold timer of a RUNNING room ends, SYNC_LOST is added, the room is HELD and the timer disarmed;
SYNC_LOST and STATE are raised once each. R63, R57: a prescaler expiry lowers the divider count; the one at its last
count is a divider expiry (log 4). A divider expiry takes a pending divider, loads both counts and counts a frame of a
RUNNING room, which may end it. -/
def Obligations.TimerAndChainExpiriesMoveTheClock : Prop :=
  (∀ (r : RoomNo) (n : Nat) (s : State), s.powered = true → (s.clock r).show_ = .running →
     (s.clock r).syncTimer = some n →
     let c := s.clock r
     ∃ t, exec (.syncHoldExpiry r) s = .next t ∧
       t.clock r = { c with
         show_ := .held, holds := { c.holds with syncLost := true }, syncTimer := none,
         chain := (match c.chain with | .running pre div => .paused pre div | other => other) } ∧
       RaisedOnce s t (.room r .state) ∧ RaisedOnce s t (.room r .syncLost) ∧
       (∀ e, e ≠ .room r .state → e ≠ .room r .syncLost → t.evu.latch e = s.evu.latch e) ∧
       Room.sameButClock s.rooms[r] t.rooms[r] ∧ sameOtherRooms s t r ∧ t.link.inbound = s.link.inbound ∧
       t.roster = s.roster ∧ sameStore s t ∧ sameReceiver s t ∧ sameOutside s t) ∧
  (∀ (r : RoomNo) (pre div : Nat) (s : State), s.powered = true → (s.clock r).chain = .running pre div →
     let c := s.clock r
     (1 < div → exec (.prescalerExpiry r) s = .next { s with
       rooms := s.rooms.set r { s.rooms[r] with clock := { c with chain := .running (c.p.getD 0) (div - 1) } } }) ∧
     (div = 1 → exec (.prescalerExpiry r) s = exec (.dividerExpiry r) s) ∧
     (c.show_ = .running → c.pos + 1 ≠ c.endPos.getD 16777215 → ∀ d,
       (c.pendingDiv = some d ∨ (c.pendingDiv = none ∧ c.current = some d)) →
       exec (.dividerExpiry r) s = .next { s with
         rooms := s.rooms.set r { s.rooms[r] with clock := { c with
           pos := c.pos + 1, current := some d, pendingDiv := none, chain := .running (c.p.getD 0) d } } }) ∧
     (c.show_ = .running → c.pos + 1 = c.endPos.getD 16777215 →
       ∃ t, exec (.dividerExpiry r) s = .next t ∧ (t.clock r).show_ = .ended ∧ (t.clock r).pos = c.pos + 1 ∧
         (t.clock r).chain = .stopped ∧ RaisedOnce s t (.room r .state) ∧ sameOtherRooms s t r ∧
         t.roster = s.roster ∧ sameStore s t ∧ sameReceiver s t ∧ sameOutside s t))

/-! ### Maps and bindings -/

/-- R137, R138: a SLOT_MAP with a carrier out of range is refused at its first bad slot, one that leaves a binding too
few slots at the lowest such binding; otherwise the map is pending, or active at once in a DARK room. A map active at
once without a DIRECTIVES carrier closes the directive path: RELEASING entries go, all others are kept (R157). -/
def Obligations.SlotMapIsTaken : Prop :=
  ∀ (tag : Byte) (r : RoomNo) (entries : List (Nat × Nat)) (s : State), s.ready → entries.length = 39 →
    let good (e : Nat × Nat) : Prop := (e.1 ≤ 4 ∨ e.1 = 8) ∧ (e.2 ≤ 4 ∨ e.2 = 8)
    let even (i : BindNo) : Nat := entries.countP (fun e => decide (e.1 = i.val + 1))
    let odd (i : BindNo) : Nat := entries.countP (fun e => decide (e.2 = i.val + 1))
    let served (i : BindNo) : Prop :=
      ((s.binding r i).state = .unbinding → 1 ≤ even i + odd i) ∧
      ((s.binding r i).bound = true → (s.binding r i).kind = some .voice → 2 ≤ even i ∧ 2 ≤ odd i) ∧
      ((s.binding r i).bound = true → (s.binding r i).kind = some .text ∨ (s.binding r i).kind = some .live →
        1 ≤ even i + odd i)
    let isMap (map : SlotMap) : Prop := ∀ (j : Fin 39) (e : Nat × Nat), entries[j.val]? = some e →
      Carrier.ofCode? e.1 = some (map[j]).even ∧ Carrier.ofCode? e.2 = some (map[j]).odd
    (∀ n e, entries[n]? = some e → ¬good e → (∀ m e', m < n → entries[m]? = some e' → good e') →
      exec (.slotMap tag r.val entries) s = .next (s.refusedWith 0x20 tag .badArg (n + 1))) ∧
    ((∀ e ∈ entries, good e) → ∀ i : BindNo, ¬served i → (∀ j : BindNo, j < i → served j) →
      exec (.slotMap tag r.val entries) s = .next (s.refusedWith 0x20 tag .inUse i.val)) ∧
    ((∀ e ∈ entries, good e) → (∀ i : BindNo, served i) → (s.clock r).show_ ≠ .dark →
      ∃ map, isMap map ∧ exec (.slotMap tag r.val entries) s = .next { s with
        rooms := s.rooms.set r { s.rooms[r] with comp := { (s.rooms[r]).comp with pendingMap := some map } }
        link := s.link.replied 0x20 tag true [1#8] }) ∧
    ((∀ e ∈ entries, good e) → (∀ i : BindNo, served i) → (s.clock r).show_ = .dark →
      ∃ t map, isMap map ∧ exec (.slotMap tag r.val entries) s = .next t ∧
        (t.rooms[r]).comp = { (s.rooms[r]).comp with active := map, pendingMap := none } ∧
        t.clock r = s.clock r ∧ (t.rooms[r]).bindings = (s.rooms[r]).bindings ∧
        ((∃ e ∈ entries, e.1 = 8 ∨ e.2 = 8) → t.roster = s.roster ∧ sameOtherRooms s t r) ∧
        ((∀ e ∈ entries, e.1 ≠ 8 ∧ e.2 ≠ 8) →
          (∀ (i : RosterIx) (e : RosterEntry), t.roster[i] = some e →
            ¬(e.releasing = true ∧ e.room = r) ∧ e.former ≠ some r) ∧
          ∀ (i : RosterIx) (e : RosterEntry), s.roster[i] = some e → ¬(e.releasing = true ∧ e.room = r) →
            t.roster[i] = some (e.pathClosed r)) ∧
        t.link = s.link.replied 0x20 tag true [0#8] ∧ t.evu = s.evu ∧ t.lines = s.lines ∧ sameStore s t ∧
        sameOutside s t)

/-- R75, R76, R114 to R117: BIND is judged in order. A SEALED track, or LIVE, is bound to an UNBOUND binding that the
maps serve: the binding names it with its kind, language and bank, a track's bind count rises, and in an ARMED, RUNNING
or HELD room the binding is repositioned to the room's position. A LIVE binding, which names no track, keeps the bank
of its place (log 5). Where both maps are short the detail is 2 (the model's choice, log 36). Notices of the event come
before the reply (log 19). -/
def Obligations.BindBindsATrack : Prop :=
  (∀ (tag : Byte) (r : RoomNo) (n id : Nat) (lang : Lang) (s : State), s.ready →
    (3 < n ∨ (id = 0 ∧ Machine.Lang.valid lang = false)) →
    exec (.bindTrack tag r.val n id lang) s = .next (s.refusedWith 0x28 tag .badArg 0)) ∧
  (∀ (tag : Byte) (r : RoomNo) (i : BindNo) (id : Nat) (lang : Lang) (s : State), s.ready → s.mounting = false →
    let cmd := Instr.bindTrack tag r.val i.val id lang
    let b := s.binding r i
    (id ≠ 0 → s.track? id = none → exec cmd s = .next (s.refusedWith 0x28 tag .notFound 0)) ∧
    (∀ tr, id ≠ 0 → s.track? id = some tr → tr.state ≠ .sealed →
      exec cmd s = .next (s.refusedWith 0x28 tag .badState 0)) ∧
    ∀ kind : BKind, ((id = 0 ∧ Machine.Lang.valid lang = true ∧ kind = .live) ∨
        (id ≠ 0 ∧ ∃ tr, s.track? id = some tr ∧ tr.state = .sealed ∧
          kind = match tr.kind with | .text => BKind.text | .voice => BKind.voice)) →
      (b.state = .unbinding → exec cmd s = .next (s.refusedWith 0x28 tag .busy 0)) ∧
      (b.state ≠ .unbinding → b.state ≠ .unbound → exec cmd s = .next (s.refusedWith 0x28 tag .inUse 1)) ∧
      (b.state = .unbound → mapServes (s.rooms[r]).comp.active kind i = false →
        exec cmd s = .next (s.refusedWith 0x28 tag .inUse 2)) ∧
      (b.state = .unbound → mapServes (s.rooms[r]).comp.active kind i = true →
        ∀ map, (s.rooms[r]).comp.pendingMap = some map → mapServes map kind i = false →
        exec cmd s = .next (s.refusedWith 0x28 tag .inUse 3))) ∧
  (∀ (map : SlotMap) (i : BindNo),
    let even := map.toList.countP (fun e => decide (e.even = .binding i))
    let odd := map.toList.countP (fun e => decide (e.odd = .binding i))
    (mapServes map .voice i = true ↔ 2 ≤ even ∧ 2 ≤ odd) ∧ (mapServes map .text i = true ↔ 1 ≤ even + odd) ∧
      (mapServes map .live i = true ↔ 1 ≤ even + odd)) ∧
  ∀ (tag : Byte) (r : RoomNo) (i : BindNo) (id : Nat) (lang : Lang) (kind : BKind) (tr : Track) (s : State),
    s.ready → s.mounting = false → (s.binding r i).state = .unbound →
    mapServes (s.rooms[r]).comp.active kind i = true →
    (∀ map, (s.rooms[r]).comp.pendingMap = some map → mapServes map kind i = true) →
    let inService : Prop := (s.clock r).show_ = .armed ∨ (s.clock r).show_ = .running ∨ (s.clock r).show_ = .held
    let b := s.binding r i
    let pos := (s.clock r).pos
    (id ≠ 0 → s.track? id = some tr → tr.state = .sealed →
      kind = (match tr.kind with | .text => BKind.text | .voice => BKind.voice) →
      let bound : Binding := { b with
        state := .playing, track := .stored id, kind := some kind, lang := some tr.lang, bank := tr.bank }
      let view : Option TrackView := tr.summary.map (fun sm => ⟨tr.kind, tr.segs, sm.endPage, sm.longest⟩)
      ∃ t, exec (.bindTrack tag r.val i.val id lang) s = .next t ∧
        t.track? id = some { tr with bindCount := tr.bindCount + 1 } ∧
        (¬inService → t.binding r i = bound) ∧
        (inService → Repositioned view pos bound (t.binding r i) ∧ RequestsStart t r i view pos bound) ∧
        Answers s t 0x28 tag [(t.binding r i).gen] ∧ t.clock r = s.clock r ∧ sameOtherRooms s t r ∧
        (∀ j : BindNo, j ≠ i → t.binding r j = s.binding r j) ∧ t.roster = s.roster ∧ t.arrays = s.arrays ∧
        sameReceiver s t ∧ sameOutside s t) ∧
    (id = 0 → Machine.Lang.valid lang = true → kind = .live →
      let bound : Binding := { b with state := .playing, track := .live, kind := some .live, lang := some lang }
      ∃ t, exec (.bindTrack tag r.val i.val 0 lang) s = .next t ∧
        (¬inService → t.binding r i = bound) ∧
        (inService → Repositioned none pos bound (t.binding r i) ∧ RaisedOnce s t (.room r .landed)) ∧
        Answers s t 0x28 tag [(t.binding r i).gen] ∧ t.clock r = s.clock r ∧ sameOtherRooms s t r ∧
        (∀ j : BindNo, j ≠ i → t.binding r j = s.binding r j) ∧ t.roster = s.roster ∧ t.tracks = s.tracks ∧
        t.arrays = s.arrays ∧ sameReceiver s t ∧ sameOutside s t)

/-- R77, R105: UNBIND steps the generation, empties the binding, lowers the track's bind count and drops the binding's
live texts; a text or LIVE binding out of DARK becomes UNBINDING with one WIPE, any other becomes UNBOUND. -/
def Obligations.UnbindReleasesTheBinding : Prop :=
  (∀ (tag : Byte) (r : RoomNo) (n : Nat) (s : State), s.ready → 3 < n →
    exec (.unbind tag r.val n) s = .next (s.refusedWith 0x29 tag .badArg 0)) ∧
  ∀ (tag : Byte) (r : RoomNo) (i : BindNo) (s : State), s.ready →
    let b := s.binding r i
    ((b.state = .unbound ∨ b.state = .unbinding) →
      exec (.unbind tag r.val i.val) s = .next (s.refusedWith 0x29 tag .badState 0)) ∧
    (b.state ≠ .unbound → b.state ≠ .unbinding →
      ∃ t, exec (.unbind tag r.val i.val) s = .next t ∧
        (t.binding r i).gen = b.gen + 1 ∧ (t.binding r i).serve = none ∧ (t.binding r i).fetch = .empty ∧
        (t.binding r i).loaded = false ∧ (t.binding r i).staging = [] ∧ (t.binding r i).window = [] ∧
        (t.binding r i).clip = none ∧ (t.binding r i).scan = none ∧ (t.binding r i).rept = [] ∧
        (t.binding r i).issued = b.issued.map (fun x => { x with stale := true }) ∧
        ((b.kind = some .text ∨ b.kind = some .live) ∧ (s.clock r).show_ ≠ .dark →
          (t.binding r i).state = .unbinding ∧ (t.binding r i).prompt = [⟨.wipe, 0⟩]) ∧
        ((b.kind = some .voice ∨ (s.clock r).show_ = .dark) →
          (t.binding r i).state = .unbound ∧ (t.binding r i).track = .none ∧ (t.binding r i).prompt = []) ∧
        (∀ id tr, b.track = .stored id → s.track? id = some tr →
          (t.binding r i).track = .none ∧ t.track? id = some { tr with bindCount := tr.bindCount - 1 }) ∧
        (t.rooms[r]).ring = (s.rooms[r]).ring.filter (fun e => !decide (e.binding = i)) ∧
        t.clock r = s.clock r ∧ (t.rooms[r]).comp = (s.rooms[r]).comp ∧ sameOtherRooms s t r ∧
        (∀ j : BindNo, j ≠ i → t.binding r j = s.binding r j) ∧
        (∀ l : LineNo, s.holder l ≠ some (.tally, r) → t.lines[l] = s.lines[l]) ∧
        t.link = s.link.replied 0x29 tag true [] ∧ t.evu = s.evu ∧ t.roster = s.roster ∧ t.banks = s.banks ∧
        t.arrays = s.arrays ∧ sameOutside s t)

/-- R106: LIVE_TEXT is judged in order; an accepted text joins the tail of the room's ring with the next serial, which
steps, and the reply carries the serial and the entries held. It is taken in every show state. -/
def Obligations.LiveTextJoinsTheRing : Prop :=
  (∀ (tag : Byte) (room n hold notify : Nat) (text : List Byte) (s : State), s.ready →
    (15 < room ∨ 3 < n ∨ text.length = 0 ∨ 244 < text.length ∨ hold = 0 ∨ 3000 < hold ∨ 1 < notify) →
    exec (.liveText tag room n hold notify text) s = .next (s.refusedWith 0x2A tag .badArg 0)) ∧
  ∀ (tag : Byte) (r : RoomNo) (i : BindNo) (hold notify : Nat) (text : List Byte) (s : State), s.ready →
    1 ≤ text.length → text.length ≤ 244 → 1 ≤ hold → hold ≤ 3000 → notify ≤ 1 →
    let b := s.binding r i
    let room := s.rooms[r]
    let live : Prop := b.track = .live ∧ b.state ≠ .unbound ∧ b.state ≠ .unbinding
    (¬live → exec (.liveText tag r.val i.val hold notify text) s = .next (s.refusedWith 0x2A tag .badState 0)) ∧
    (live → 8 ≤ room.ring.length →
      exec (.liveText tag r.val i.val hold notify text) s = .next (s.refusedWith 0x2A tag .busy 0)) ∧
    (live → room.ring.length < 8 →
      exec (.liveText tag r.val i.val hold notify text) s = .next { s with
        rooms := s.rooms.set r { room with
          ring := room.ring ++ [⟨i, room.liveSerial, text, hold, decide (notify = 1)⟩]
          liveSerial := if room.liveSerial = 65535 then 1 else room.liveSerial + 1 }
        link := s.link.replied 0x2A tag true (u16 room.liveSerial ++ u8 (room.ring.length + 1)) })

/-- R132, R134, R138, R139, R144, R191: a round boundary takes the pending map, lets the four bindings activate,
composes the round for the counter as it stands, and then steps the counter and the rotation index and loads the timer
with 1920. The round is the sync pattern, room and parity, the beacon of the position sampled with the menu entry of
the binding the rotation index names, slots 1 to 39 by the map's carriers of the parity, and the check over them; it
has 726 bytes where the pages in hand have the length of their fill marks, an invariant stated above. Its first bit is
at the port; after n ticks the bit sent is the one that 5808 bits in 1920 ticks give, most significant first (log 26).
A binding's work is put back in its place. The model's choices in it: the bindings are taken in number order (log 19);
the menu entry is taken from the bindings as they stand before slots 1 to 39 are filled (log 30); and the row acts in
every state of the round timer, its count not being asked (log 4). -/
def Obligations.RoundBoundaryComposesARound : Prop :=
  (∀ (r : RoomNo) (s : State), s.powered = true → (s.clock r).show_ ≠ .dark →
    let c := s.clock r
    let comp := (s.rooms[r]).comp
    let map := comp.pendingMap.getD comp.active
    let s0 := s.mapStage r
    let s4 := (((s0.runBinding r 0 activate).runBinding r 1 activate).runBinding r 2 activate).runBinding r 3 activate
    let slots := s4.fillSlots r []
      (map.toList.map (fun e => if comp.counter % 2 = 1 then e.odd else e.even))
    ∃ t head menu, exec (.roundBoundary r) s = .next t ∧
      head = [0x9D#8, 0x2A#8] ++ u8 r.val ++ [if comp.counter % 2 = 1 then 1#8 else 0#8] ++
        [9#8, 0xC0#8] ++ u8 r.val ++ u8 c.channel ++ u8 c.show_.code ++ u24 c.pos ++ u16 comp.counter ++
        menu ++ [0xFF#8, 0xFF#8] ++ slots.2 ∧
      menu.length = 6 ∧
      (∀ i : BindNo, i.val = comp.rotation →
        let b := s4.binding r i
        menu = u8 i.val ++
          [match b.kind with | none => 0#8 | some .text => 1#8 | some .voice => 2#8 | some .live => 3#8] ++
          (match b.lang with | none => [0#8, 0#8, 0#8] | some l => [l.a, l.b, l.c]) ++ u8 b.state.code) ∧
      (t.rooms[r]).comp = ⟨some 1920, (comp.counter + 1) % 65536, (comp.rotation + 1) % 4, map, none,
        some (head ++ u16 (crc head).toNat)⟩ ∧
      crc (head ++ u16 (crc head).toNat) = 0#16 ∧
      ((∀ i : BindNo, (s.binding r i).pagesSound) → (head ++ u16 (crc head).toNat).length = 726) ∧
      (∀ i : BindNo, t.binding r i = { slots.1.binding r i with block := none }) ∧
      t.emitterPort r = true ∧ t.clock r = c ∧ (∀ i : BindNo, (t.binding r i).gen = (s.binding r i).gen) ∧
      (∀ q : RoomNo, q ≠ r → (t.rooms[q]).clock = (s.rooms[q]).clock ∧ (t.rooms[q]).comp = (s.rooms[q]).comp ∧
        (t.rooms[q]).bindings = (s.rooms[q]).bindings) ∧
      t.link.inbound = s.link.inbound ∧ t.tracks = s.tracks ∧ t.arrays = s.arrays ∧ sameReceiver s t ∧
      sameOutside s t) ∧
  (∀ (s : State) (r : RoomNo) (i : BindNo) (f : PCtx → PWork → PWork),
    let w := f (s.pctx r i) ⟨s.binding r i, (s.rooms[r]).ring, [], []⟩
    let t := s.runBinding r i f
    t.binding r i = w.b ∧ (t.rooms[r]).ring = w.ring ∧ (∀ j : BindNo, j ≠ i → t.binding r j = s.binding r j) ∧
      t.clock r = s.clock r ∧ (t.rooms[r]).comp = (s.rooms[r]).comp ∧ sameOtherRooms s t r ∧ t.tracks = s.tracks ∧
      (t.banks[w.b.bank]).fetchQ = (s.banks[w.b.bank]).fetchQ ++ w.reqs) ∧
  ∀ (s : State) (r : RoomNo) (round : List Byte) (n : Nat), (s.clock r).show_ ≠ .dark →
    (s.rooms[r]).comp.tx = some round → (s.rooms[r]).comp.roundTimer = some n →
    ∀ (i j : Nat) (b : Byte), j < 8 → (1920 - n) * 5808 / 1920 = 8 * i + j → round[i]? = some b →
      (s.rooms[r]).comp.transmission = some (round, 8 * i + j) ∧ s.emitterPort r = b.getMsbD j

/-- R98, R139 to R143, R191: slots 1 to 39 are filled in ascending order, each seeing what the slots before it left.
EMPTY gives FILL; DIRECTIVES two directives, the first before the second; a voice binding its block's halves by its
slots before this one; a text or LIVE binding the next fragment of its current message, which is the partly sent one,
else the head of the prompt queue, else that of the repeat queue. A message leaves its queue with its last fragment: a
SHOW's cue has age 0, a CLEAR with the notify mark raises LIVE_SENT, the WIPE of an UNBINDING binding makes it UNBOUND.
-/
def Obligations.SlotsAreFilledByTheirCarriers : Prop :=
  (∀ (s : State) (r : RoomNo) (done : List Carrier), s.fillSlots r done [] = (s, []) ∧
    ∀ c cs, s.fillSlots r done (c :: cs) =
      (((s.fillSlotOf r done c).1.fillSlots r (done ++ [c]) cs).1,
        (s.fillSlotOf r done c).2 ++ ((s.fillSlotOf r done c).1.fillSlots r (done ++ [c]) cs).2)) ∧
  (∀ (s : State) (r : RoomNo) (done : List Carrier),
    s.fillSlotOf r done .empty = (s, [0x00#8, 0xC0#8] ++ List.replicate 16 0xFF#8) ∧
    s.fillSlotOf r done .directives = (((s.produceDirective r).1.produceDirective r).1,
      [0x08#8, 0xC0#8] ++ (s.produceDirective r).2 ++ ((s.produceDirective r).1.produceDirective r).2)) ∧
  (∀ (serial : Nat) (style : Byte) (text : List Byte) (notify : Bool),
    (MsgBody.show_ serial style text).bytes = [0x01#8] ++ u16 serial ++ [style] ++ u8 text.length ++ text ∧
    (MsgBody.clear serial notify).bytes = [0x02#8] ++ u16 serial ∧ MsgBody.wipe.bytes = [0x03#8]) ∧
  ∀ (s : State) (r : RoomNo) (i : BindNo) (done : List Carrier),
    let b := s.binding r i
    let slot := s.fillSlotOf r done (.binding i)
    (b.kind = some .voice → slot = (s, voiceSlot i b (done.countP (fun c => decide (c = .binding i))))) ∧
    (b.kind ≠ some .voice → b.prompt = [] → b.rept = [] →
      slot = (s, [0x00#8, 0xC0#8] ++ List.replicate 16 0xFF#8)) ∧
    ∀ (m : FeedMsg) (rest : List FeedMsg) (fromPrompt : Bool), b.kind ≠ some .voice →
      ((fromPrompt = true ∧ b.prompt = m :: rest ∧ ∀ q, b.rept.head? = some q → 0 < q.sent → 0 < m.sent) ∨
        (fromPrompt = false ∧ b.rept = m :: rest ∧
          ∀ p, b.prompt.head? = some p → p.sent = 0 ∧ 0 < m.sent)) →
      let left (l : List FeedMsg) : Binding := if fromPrompt then { b with prompt := l } else { b with rept := l }
      let n := (m.body.bytes.length + 15) / 16
      let part := (m.body.bytes.drop (16 * m.sent)).take 16
      let bytes (last : Nat) : List Byte := u8 (i.val + 1) ++
        [BitVec.ofNat 8 ((if m.sent = 0 then 128 else 0) + last + m.sent % 16)] ++ part ++
        List.replicate (16 - part.length) 0xFF#8
      let put (b' : Binding) : State := s.modBinding r i (fun _ => b')
      (m.sent + 1 < n → slot = (put (left ({ m with sent := m.sent + 1 } :: rest)), bytes 0)) ∧
      (n ≤ m.sent + 1 →
        (∀ serial style text, m.body = .show_ serial style text →
          slot = (put { left rest with
            window := b.window.map (fun c => if c.serial = serial then { c with age := some 0 } else c) }, bytes 64)) ∧
        (∀ serial, m.body = .clear serial false → slot = (put (left rest), bytes 64)) ∧
        (∀ serial, m.body = .clear serial true → slot = ((put (left rest)).raiseRoom r .liveSent, bytes 64)) ∧
        (m.body = .wipe → b.state ≠ .unbinding → slot = (put (left rest), bytes 64)) ∧
        (m.body = .wipe → b.state = .unbinding → slot = (put { left rest with
          state := .unbound, track := .none, kind := none, lang := none }, bytes 64)))

/-- R154, R155, R191: the directive a room produces at one position: for the head of its urgent queue, which leaves it,
else for the entry its cursor names, the cursor moving on first, else an empty one. For an ASSIGNED entry of the room
TUNE with the room's channel; for a RELEASING one RETURN, the release count falling, the entry freed with the last; in
the former room FORWARD with the channel of the entry's room, or RETURN, the forward count falling, the entry joining
the urgent queue again while it is above 0. -/
def Obligations.DirectivesAreProduced : Prop :=
  (∀ (s : State) (r : RoomNo), (s.rooms[r]).urgent = [] → (s.rooms[r]).cursor = none →
    s.produceDirective r = (s, List.replicate 8 0x00#8)) ∧
  (∀ (before later : List RosterIx) (i : RosterIx), i ∉ before →
    nextAfter (before ++ i :: later) (before ++ i :: later) i = (later ++ before ++ [i]).head?) ∧
  ∀ (s s1 : State) (r : RoomNo) (i : RosterIx) (e : RosterEntry), s.roster[i] = some e →
    ((∃ rest, (s.rooms[r]).urgent = i :: rest ∧ s1 = s.modRoom r (fun x => { x with urgent := rest })) ∨
      ((s.rooms[r]).urgent = [] ∧ (s.rooms[r]).cursor = some i ∧
        s1 = s.modRoom r (fun x => { x with cursor := nextAfter x.rota x.rota i }))) →
    let bytes (action channel : Nat) : List Byte :=
      u32 e.receiver ++ u8 action ++ u8 e.binding ++ u8 channel ++ u8 (e.size * 16 + e.volume)
    let own := (s.clock r).channel
    let inFormer : List Byte := if e.releasing then bytes 3 own else bytes 2 (s.clock e.room).channel
    (e.room = r → e.releasing = false → s.produceDirective r = (s1, bytes 1 own)) ∧
    (e.room = r → e.releasing = true → 1 < e.releaseCount → s.produceDirective r =
      ({ s1 with roster := s.roster.set i (some { e with releaseCount := e.releaseCount - 1 }) }, bytes 3 own)) ∧
    (e.room = r → e.releasing = true → e.releaseCount ≤ 1 →
      (s.produceDirective r).2 = bytes 3 own ∧
      let t := (s.produceDirective r).1
      t.roster = s.roster.set i none ∧ (t.rooms[r]).rota = (s1.rooms[r]).rota.filter (fun j => !decide (j = i)) ∧
        (t.rooms[r]).urgent = (s1.rooms[r]).urgent.filter (fun j => !decide (j = i)) ∧
        (∀ a, e.former = some a → i ∉ (t.rooms[a]).urgent) ∧
        (∀ q : RoomNo, q ≠ r → e.former ≠ some q → t.rooms[q] = s.rooms[q]) ∧ t.link = s.link ∧ t.evu = s.evu ∧
        t.lines = s.lines ∧ sameStore s t ∧ sameOutside s t) ∧
    (e.room ≠ r → 1 < e.forwardCount → s.produceDirective r =
      ({ s1 with
        roster := s.roster.set i (some { e with forwardCount := e.forwardCount - 1 })
        rooms := s1.rooms.set r { s1.rooms[r] with
          urgent := if i ∈ (s1.rooms[r]).urgent then (s1.rooms[r]).urgent else (s1.rooms[r]).urgent ++ [i] } },
        inFormer)) ∧
    (e.room ≠ r → e.forwardCount ≤ 1 → s.produceDirective r =
      ({ s1 with roster := s.roster.set i (some { e with former := none, forwardCount := 0 }) }, inFormer))

/-! ### Tracks -/

/-- R28: TRACK_CREATE is judged in order; an accepted one makes a LOADING entry and takes no segment. -/
def Obligations.TrackCreateMakesALoadingEntry : Prop :=
  ∀ (tag : Byte) (id kind : Nat) (lang : Lang) (bank : Nat) (s : State), s.ready →
    let letters : Prop := ∀ x ∈ [lang.a, lang.b, lang.c], 0x41 ≤ x.toNat ∧ x.toNat ≤ 0x5A
    let good : Prop := id ≠ 0 ∧ (kind = 1 ∨ kind = 2) ∧ letters ∧ bank ≤ 1
    let cmd := Instr.trackCreate tag id kind lang bank
    (s.mounting = true → exec cmd s = .next (s.refusedWith 0x30 tag .mounting 0)) ∧
    (s.mounting = false → ¬good → exec cmd s = .next (s.refusedWith 0x30 tag .badArg 0)) ∧
    (s.mounting = false → good → (∃ tr ∈ s.tracks, tr.id = id) →
      exec cmd s = .next (s.refusedWith 0x30 tag .inUse 0)) ∧
    (s.mounting = false → good → (∀ tr ∈ s.tracks, tr.id ≠ id) → 128 ≤ s.tracks.length →
      exec cmd s = .next (s.refusedWith 0x30 tag .noSpace 0)) ∧
    (s.mounting = false → good → (∀ tr ∈ s.tracks, tr.id ≠ id) → s.tracks.length < 128 →
      ∃ tr : Track, exec cmd s = .next { s with
          tracks := insertTrack tr s.tracks, link := s.link.replied 0x30 tag true [] } ∧
        tr.id = id ∧ tr.kind.code = kind ∧ tr.lang = lang ∧ tr.bank.val = bank ∧ tr.state = .loading ∧ tr.gen = 0 ∧
        tr.segs = [] ∧ tr.writePos = some 0 ∧ tr.settled = some 0 ∧ tr.rewind = none ∧ tr.checkpoint = none ∧
        tr.priorCheckpoint = none ∧ tr.running = some ⟨0, 0, 0, 0, 0, 0⟩ ∧ tr.inFlight = 0 ∧
        tr.sealPending = false ∧ tr.bindCount = 0 ∧
        ∀ x, x ∈ insertTrack tr s.tracks ↔ x = tr ∨ x ∈ s.tracks)

/-- R29 to R31, R5: TRACK_WRITE is judged in order, each refusal changing nothing. One that passes is placed on the
track's last segment, or on the head of the free list when that is full or there is none, and waits in the load buffer
or is granted at once; the track keeps a checkpoint of the parser at the start of its last segment, and of the segment
before while that still has a write in flight. SEGMENTS_LOW is raised where the segment taken brings the bank's
free-plus-clear count from 32 to 31 (R21), and its notice comes before the reply (log 19). -/
def Obligations.TrackWriteFillsTheLoadBuffer : Prop :=
  (∀ (tag : Byte) (id ex : Nat) (data : List Byte) (s : State), s.ready → (data.length = 0 ∨ 2048 < data.length) →
    exec (.trackWrite tag id ex data) s = .next (s.refusedWith 0x31 tag .badLength (6 + data.length))) ∧
  (∀ (tag : Byte) (id ex : Nat) (data : List Byte) (s : State), s.ready → s.mounting = false → 1 ≤ data.length →
    data.length ≤ 2048 →
    let refused (reason : Reason) (detail : Nat) : Prop :=
      exec (.trackWrite tag id ex data) s = .next (s.refusedWith 0x31 tag reason detail)
    (s.track? id = none → refused .notFound 0) ∧
    ∀ tr, s.track? id = some tr →
      ((tr.state ≠ .loading ∨ tr.sealPending = true) → refused .badState 0) ∧
      (tr.state = .loading → tr.sealPending = false →
        (tr.writePos ≠ some ex → refused .rewind (tr.writePos.getD 0)) ∧
        (tr.writePos = some ex →
          let b := s.banks[tr.bank]
          let open_ : Option Cursor := match tr.segs.getLast? with
            | none => none
            | some e => match (b.segs[e.seg]).cursor with
              | none => none
              | some c => if c.page < 64 then some c else none
          let room : Nat := match open_ with
            | none => 2048
            | some c => 2048 - c.fill
          (room < data.length → refused .badArg room) ∧
          (data.length ≤ room →
            (∀ reason offset, parse tr.kind (tr.running.getD ParserState.start) data = .bad reason offset →
              refused reason (offset - ex)) ∧
            (∀ p pad, parse tr.kind (tr.running.getD ParserState.start) data = .ok p pad →
              (b.loadBuf ≠ none → refused .busy 0) ∧
              (b.loadBuf = none → open_ = none →
                (256 ≤ tr.segs.length → refused .noSpace 0) ∧
                (tr.segs.length < 256 → b.free = [] →
                  (b.clearQ ≠ [] → refused .busy 0) ∧ (b.clearQ = [] → refused .noSpace 0)))))))) ∧
  (∀ (tag : Byte) (id ex : Nat) (data : List Byte) (tr : Track) (p : ParserState) (pad : Bool) (s : State), s.ready →
     s.mounting = false → s.track? id = some tr → tr.state = .loading → tr.sealPending = false →
     tr.writePos = some ex → 1 ≤ data.length → data.length ≤ 2048 →
     parse tr.kind (tr.running.getD ParserState.start) data = .ok p pad →
     (s.banks[tr.bank]).loadBuf = none →
     let lastWriting : Prop := ∃ e lb, tr.segs.getLast? = some e ∧
       (s.banks[tr.bank]).op = some (.pageWrite lb) ∧ lb.trackId = id ∧ lb.seg = e.seg
     let now (n : Nat) (lb : LoadBuf) (fresh : Bool) (g : SegNo) (ord entry : Nat) : Prop :=
       ∃ t tr', exec (.trackWrite tag id ex data) s = .next t ∧ t.track? id = some tr' ∧
         tr'.writePos = some (ex + data.length) ∧ tr'.settled = tr.settled ∧ tr'.rewind = none ∧
         tr'.running = some p ∧ tr'.inFlight = tr.inFlight + 1 ∧ tr'.state = .loading ∧
         tr'.checkpoint = (if fresh then tr.running else tr.checkpoint) ∧
         (fresh = false → tr'.priorCheckpoint = tr.priorCheckpoint) ∧
         (fresh = true → (lastWriting → tr'.priorCheckpoint = tr.checkpoint) ∧
           (¬lastWriting → tr'.priorCheckpoint = none)) ∧
         tr'.segs = (if fresh then tr.segs ++ [⟨ord, g, entry⟩] else tr.segs) ∧
         (t.banks[tr.bank]).hasWrite lb ∧ ((t.banks[tr.bank]).segs[g]).cursor = some
           (if 2048 ≤ lb.fillBefore + data.length ∨ 4 ≤ lb.slot + 1 ∨ pad then ⟨lb.page + 1, 0, 0⟩
            else ⟨lb.page, lb.slot + 1, lb.fillBefore + data.length⟩) ∧
         (t.banks[tr.bank]).free = (s.banks[tr.bank]).free.drop n ∧
         Answers s t 0x31 tag (u32 ex ++ u32 (tr.settled.getD 0) ++ u16 (t.roomLeft tr')) ∧ JudgesLow s t tr.bank ∧
         t.arrays = s.arrays ∧ t.rooms = s.rooms ∧ t.lines = s.lines ∧ t.roster = s.roster ∧
         (∀ j : BankNo, j ≠ tr.bank → t.banks[j] = s.banks[j]) ∧ sameReceiver s t ∧ sameOutside s t
     (∀ e c, tr.segs.getLast? = some e → ((s.banks[tr.bank]).segs[e.seg]).cursor = some c → c.page < 64 →
       data.length ≤ 2048 - c.fill →
       now 0 ⟨id, e.seg, c.page, c.writes, c.fill, c.fill + data.length, pad, data, ex, none⟩ false e.seg 0 0) ∧
     (∀ g rest, (tr.segs = [] ∨ ∃ e c, tr.segs.getLast? = some e ∧
         ((s.banks[tr.bank]).segs[e.seg]).cursor = some c ∧ 64 ≤ c.page) →
       tr.segs.length < 256 → (s.banks[tr.bank]).free = g :: rest →
       let entry := entryFrame tr.kind (tr.running.getD ParserState.start) data
       now 1 ⟨id, g, 0, 0, 0, data.length, pad, data, ex,
         some ⟨id, tr.kind.code, tr.lang, tr.gen, tr.segs.length, entry⟩⟩ true g tr.segs.length entry))

/-- R35, R31, R18: TRACK_SEAL is judged in order, each refusal changing nothing; an accepted one places the END record
as a write with the close indication, on the track's last segment or on a new one where that is full or there is none,
marks the seal pending and leaves the command open. SEGMENTS_LOW is judged where a segment is taken (R21), and its
notice comes before anything else is queued (log 19). -/
def Obligations.TrackSealPlacesTheEndRecord : Prop :=
  (∀ (tag : Byte) (id ex : Nat) (s : State), s.ready → s.mounting = false →
    let refused (reason : Reason) (detail : Nat) : Prop :=
      exec (.trackSeal tag id ex) s = .next (s.refusedWith 0x32 tag reason detail)
    (s.track? id = none → refused .notFound 0) ∧
    ∀ tr, s.track? id = some tr →
      ((tr.state ≠ .loading ∨ tr.sealPending = true) → refused .badState 0) ∧
      (tr.state = .loading → tr.sealPending = false →
        (tr.writePos ≠ some ex → refused .rewind (tr.writePos.getD 0)) ∧
        (tr.writePos = some ex →
          let b := s.banks[tr.bank]
          let p := tr.running.getD ParserState.start
          let open_ : Option Cursor := match tr.segs.getLast? with
            | none => none
            | some e => match (b.segs[e.seg]).cursor with
              | none => none
              | some c => if c.page < 64 then some c else none
          let room : Nat := match open_ with
            | none => 2048
            | some c => 2048 - c.fill
          (0 < p.openBytes → refused .badCue 0) ∧
          (p.openBytes = 0 → room < 12 → refused .badArg room) ∧
          (p.openBytes = 0 → 12 ≤ room →
            (b.loadBuf ≠ none → refused .busy 0) ∧
            (b.loadBuf = none → open_ = none →
              (256 ≤ tr.segs.length → refused .noSpace 0) ∧
              (tr.segs.length < 256 → b.free = [] →
                (b.clearQ ≠ [] → refused .busy 0) ∧ (b.clearQ = [] → refused .noSpace 0))))))) ∧
  (∀ (tag : Byte) (id ex : Nat) (tr : Track) (p : ParserState) (e : SegElem) (c : Cursor) (s : State), s.ready →
     s.mounting = false → s.track? id = some tr → tr.state = .loading → tr.sealPending = false →
     tr.writePos = some ex → tr.running = some p → (s.banks[tr.bank]).loadBuf = none →
     tr.segs.getLast? = some e → ((s.banks[tr.bank]).segs[e.seg]).cursor = some c → c.page < 64 →
     p.openBytes = 0 → c.fill + 12 ≤ 2048 →
     ∃ t tr', exec (.trackSeal tag id ex) s = .next t ∧ Defers s t 0x32 tag id ∧ t.track? id = some tr' ∧
       tr'.sealPending = true ∧ tr'.state = .loading ∧ tr'.writePos = some (ex + 12) ∧
       tr'.inFlight = tr.inFlight + 1 ∧ tr'.rewind = none ∧ tr'.segs = tr.segs ∧ tr'.sealPage = some ⟨e.ord, c.page⟩ ∧
       (t.banks[tr.bank]).hasWrite ⟨id, e.seg, c.page, c.writes, c.fill, c.fill + 12, true,
         [0x0F#8] ++ u16 p.count ++ u32 p.lastEnd ++ u32 p.longest ++ u8 tr.gen, ex, none⟩ ∧
       t.arrays = s.arrays ∧ t.rooms = s.rooms ∧ t.lines = s.lines ∧ t.roster = s.roster ∧ t.evu = s.evu ∧
       (∀ j : BankNo, j ≠ tr.bank → t.banks[j] = s.banks[j]) ∧ sameReceiver s t ∧ sameOutside s t) ∧
  ∀ (tag : Byte) (id ex : Nat) (tr : Track) (p : ParserState) (s : State), s.ready →
    s.mounting = false → s.track? id = some tr → tr.state = .loading → tr.sealPending = false →
    tr.writePos = some ex → tr.running = some p → p.openBytes = 0 →
    (tr.segs = [] ∨ ∃ e c, tr.segs.getLast? = some e ∧
      ((s.banks[tr.bank]).segs[e.seg]).cursor = some c ∧ 64 ≤ c.page) →
    ∀ g rest, (s.banks[tr.bank]).loadBuf = none → tr.segs.length < 256 → (s.banks[tr.bank]).free = g :: rest →
      ∃ t tr', exec (.trackSeal tag id ex) s = .next t ∧ Defers s t 0x32 tag id ∧ t.track? id = some tr' ∧
        tr'.sealPending = true ∧ tr'.state = .loading ∧ tr'.writePos = some (ex + 12) ∧
        tr'.inFlight = tr.inFlight + 1 ∧ tr'.rewind = none ∧ tr'.checkpoint = some p ∧
        tr'.segs = tr.segs ++ [⟨tr.segs.length, g, p.lastStart⟩] ∧ tr'.sealPage = some ⟨tr.segs.length, 0⟩ ∧
        (t.banks[tr.bank]).hasWrite ⟨id, g, 0, 0, 0, 12, true,
          [0x0F#8] ++ u16 p.count ++ u32 p.lastEnd ++ u32 p.longest ++ u8 tr.gen, ex,
          some ⟨id, tr.kind.code, tr.lang, tr.gen, tr.segs.length, p.lastStart⟩⟩ ∧
        (t.banks[tr.bank]).free = rest ∧ ((t.banks[tr.bank]).segs[g]).cursor = some ⟨1, 0, 0⟩ ∧
        JudgesLow s t tr.bank ∧
        t.arrays = s.arrays ∧ t.rooms = s.rooms ∧ t.lines = s.lines ∧ t.roster = s.roster ∧
        (∀ j : BankNo, j ≠ tr.bank → t.banks[j] = s.banks[j]) ∧ sameReceiver s t ∧ sameOutside s t

/-- R39, R40, R18, R42: TRACK_MOVE is judged in order, its patches in their own order. An accepted one makes the track
MOVING from ordinal 0 page 0 and takes its first target from the free list, SEGMENTS_LOW being judged (R21), or waits
for one; its generation, segments and summary stay, and the command stays open. Where the free list and the clear queue
are both empty the move aborts in the same event: the track is SEALED as it was, and the command is refused NO_SPACE.
-/
def Obligations.TrackMoveBeginsAMove : Prop :=
  (∀ (tag : Byte) (id : Nat) (patches : List Patch) (s : State), s.ready → 16 < patches.length →
    exec (.trackMove tag id patches) s = .next (s.refusedWith 0x33 tag .badLength (moveBodyLength patches))) ∧
  (∀ (tag : Byte) (id : Nat) (patches : List Patch) (s : State), s.ready → s.mounting = false → patches.length ≤ 16 →
    let refused (reason : Reason) (detail : Nat) : Prop :=
      exec (.trackMove tag id patches) s = .next (s.refusedWith 0x33 tag reason detail)
    (s.track? id = none → refused .notFound 0) ∧
    ∀ tr, s.track? id = some tr →
      ((tr.state ≠ .sealed ∨ tr.gen = 255) → refused .badState 0) ∧
      (tr.state = .sealed → tr.gen ≠ 255 →
        ((∃ x ∈ s.tracks, x.state = .moving ∧ x.bank = tr.bank) → refused .busy 0) ∧
        ((∀ x ∈ s.tracks, x.state = .moving → x.bank ≠ tr.bank) →
          ∀ n p, patches[n]? = some p → ¬patchFits tr.writePos (patchEnd patches n) p →
            (∀ m q, m < n → patches[m]? = some q → patchFits tr.writePos (patchEnd patches m) q) →
            refused .badArg (n + 1)))) ∧
  (∀ (tag : Byte) (id : Nat) (tr : Track) (patches : List Patch) (s : State), s.ready → s.mounting = false →
     s.track? id = some tr → tr.state = .sealed → tr.gen < 255 → patches.length ≤ 16 →
     (∀ n p, patches[n]? = some p → patchFits tr.writePos (patchEnd patches n) p) → (∀ x ∈ s.tracks, x.state = .moving → x.bank ≠ tr.bank) →
     let begun (targets : List SegElem) : Prop :=
       ∃ t, exec (.trackMove tag id patches) s = .next t ∧ Defers s t 0x33 tag id ∧
         t.track? id = some { tr with
           state := .moving, move := some ⟨patches, ⟨0, 0⟩, 0, targets, ⟨0, 0, 0, 0, 0, 0⟩⟩ } ∧
         (t.banks[tr.bank]).free = (s.banks[tr.bank]).free.drop targets.length ∧
         (∀ x ∈ targets, ((t.banks[tr.bank]).segs[x.seg]).pool = .moveTarget) ∧ JudgesLow s t tr.bank ∧
         t.arrays = s.arrays ∧ t.rooms = s.rooms ∧ t.lines = s.lines ∧ t.roster = s.roster ∧
         (∀ j : BankNo, j ≠ tr.bank → t.banks[j] = s.banks[j]) ∧ sameReceiver s t ∧ sameOutside s t
     (∀ g rest, (s.banks[tr.bank]).free = g :: rest → begun [⟨0, g, 0⟩]) ∧
     ((s.banks[tr.bank]).free = [] → (s.banks[tr.bank]).clearQ ≠ [] → begun []) ∧
     ((s.banks[tr.bank]).free = [] → (s.banks[tr.bank]).clearQ = [] → s.openPlace? 0x33 id = none →
       let place := freePlace s.link.inbound
       ∃ t, exec (.trackMove tag id patches) s = .next t ∧
         t.track? id = some { tr with state := .sealed, move := none } ∧
         t.link = { s.link with
           inbound := s.link.inbound ++ [⟨place, tag, 0x33, id, true⟩]
           outbound := s.link.outbound ++ [.reply place tag false (refusedBody .noSpace 0)] } ∧
         (t.banks[tr.bank]).free = [] ∧ (t.banks[tr.bank]).clearQ = [] ∧ t.evu = s.evu ∧
         t.arrays = s.arrays ∧ t.rooms = s.rooms ∧ t.lines = s.lines ∧ t.roster = s.roster ∧
         (∀ j : BankNo, j ≠ tr.bank → t.banks[j] = s.banks[j]) ∧ sameOutside s t))

/-- R37, R19, R24: TRACK_DELETE is judged in order; an accepted one makes the track DELETING, without a seal summary,
and releases its segments, highest ordinal first, to the tail of the clear queue, or to the drain set where fetches
name them; a track with none is removed and answered. Its segment list is empty from the release on (log 27). A write
of the track in the array is waited for, one in the load buffer is withdrawn (R14). -/
def Obligations.TrackDeleteReleasesTheSegments : Prop :=
  (∀ (tag : Byte) (id : Nat) (s : State), s.ready → s.mounting = false → s.track? id = none →
    exec (.trackDelete tag id) s = .next (s.refusedWith 0x34 tag .notFound 0)) ∧
  ∀ (tag : Byte) (id : Nat) (tr : Track) (s : State), s.ready → s.mounting = false → s.track? id = some tr →
    (0 < tr.bindCount → exec (.trackDelete tag id) s = .next (s.refusedWith 0x34 tag .inUse 0)) ∧
    (tr.bindCount = 0 → (tr.state = .moving ∨ tr.state = .deleting ∨ tr.sealPending = true) →
      exec (.trackDelete tag id) s = .next (s.refusedWith 0x34 tag .badState 0)) ∧
    (tr.bindCount = 0 → tr.state ≠ .moving → tr.state ≠ .deleting → tr.sealPending = false →
      (∀ lb, (s.banks[tr.bank]).op = some (.pageWrite lb) → lb.trackId ≠ id) →
      (tr.segs ≠ [] →
        let gs := (tr.segs.map (·.seg)).reverse
        let named (g : SegNo) : Bool := decide (((s.banks[tr.bank]).segs[g]).refs ≠ 0)
        ∃ t tr', exec (.trackDelete tag id) s = .next t ∧ Defers s t 0x34 tag id ∧ t.track? id = some tr' ∧
          tr'.state = .deleting ∧ tr'.summary = none ∧ tr'.segs = [] ∧ tr'.clearing = gs ∧
          (t.banks[tr.bank]).clearQ = (s.banks[tr.bank]).clearQ ++ gs.filter (fun g => !named g) ∧
          (t.banks[tr.bank]).drain = (s.banks[tr.bank]).drain ++ gs.filter named ∧
          (∀ g ∈ gs, ((t.banks[tr.bank]).segs[g]).pool = (if named g then .drain else .clearQueue) ∧
            ((t.banks[tr.bank]).segs[g]).cursor = none) ∧
          (∀ lb, (s.banks[tr.bank]).loadBuf = some lb → lb.trackId = id → (t.banks[tr.bank]).loadBuf = none) ∧
          t.arrays = s.arrays ∧ t.rooms = s.rooms ∧ t.roster = s.roster ∧ sameReceiver s t ∧ sameOutside s t) ∧
      (tr.segs = [] → (∀ c ∈ s.link.inbound, ¬(c.type = 0x34 ∧ c.track = id ∧ c.answered = false)) →
        ∃ t, exec (.trackDelete tag id) s = .next t ∧ t.track? id = none ∧
          t.link.inbound = s.link.inbound ++ [⟨freePlace s.link.inbound, tag, 0x34, id, true⟩] ∧
          t.link.outbound = s.link.outbound ++ [.reply (freePlace s.link.inbound) tag true []] ∧
          t.arrays = s.arrays ∧ t.rooms = s.rooms ∧ t.roster = s.roster ∧ sameReceiver s t ∧ sameOutside s t)) ∧
    (tr.bindCount = 0 → tr.state ≠ .moving → tr.state ≠ .deleting → tr.sealPending = false →
      ∀ lb, (s.banks[tr.bank]).op = some (.pageWrite lb) → lb.trackId = id →
      ∃ t tr', exec (.trackDelete tag id) s = .next t ∧ Defers s t 0x34 tag id ∧ t.track? id = some tr' ∧
        tr'.state = .deleting ∧ tr'.segs = tr.segs ∧ tr'.inFlight = 1 ∧
        (t.banks[tr.bank]).op = (s.banks[tr.bank]).op ∧ (t.banks[tr.bank]).clearQ = (s.banks[tr.bank]).clearQ ∧
        t.arrays = s.arrays ∧ t.rooms = s.rooms ∧ t.roster = s.roster ∧ sameReceiver s t ∧ sameOutside s t)

/-- R45, R46, R158: TRACK_INFO, STORE_INFO and ROSTER_READ report and change nothing. What R45 reports "when" something
holds travels as an optional field (log 14); the code of an entry's state is opaque (log 11). That a ROSTER_READ reply
of so many entries that its body passes R168's 2080 bytes is queued whole is the model's choice (log 13). -/
def Obligations.ReportsChangeNothing : Prop :=
  (∀ (tag : Byte) (id : Nat) (s : State), s.ready → s.mounting = false → s.track? id = none →
    exec (.trackInfo tag id) s = .next (s.refusedWith 0x35 tag .notFound 0)) ∧
  (∀ (tag : Byte) (id : Nat) (tr : Track) (s : State), s.ready → s.mounting = false → s.track? id = some tr →
    exec (.trackInfo tag id) s = .next (s.replied 0x35 tag true
      (u8 tr.kind.code ++ [tr.lang.a, tr.lang.b, tr.lang.c] ++ u8 tr.bank.val ++ u8 tr.state.code ++ u8 tr.gen ++
        flagByte tr.sealPending ++ u8 tr.bindCount ++ optBytes 4 tr.writePos ++ optBytes 4 tr.settled ++
        optBytes 4 tr.rewind ++
        (match tr.summary with
         | none => List.replicate 11 0#8
         | some x => 1#8 :: (u16 x.count ++ u24 x.lastEnd ++ u24 x.longest ++ u8 x.endPage.ord ++ u8 x.endPage.pg)) ++
        u16 tr.segs.length ++ tr.segs.flatMap (fun e => u8 e.ord ++ u16 e.seg.val ++ u24 e.entry) ++
        (match tr.move with
         | none => List.replicate 5 0#8
         | some m => 1#8 :: (u16 m.moved ++ u16 m.targets.length)) ++
        (if tr.state = .deleting then 1#8 :: u16 tr.clearing.length else [0#8, 0#8, 0#8])))) ∧
  (∀ (tag : Byte) (s : State), s.ready → s.mounting = false →
    exec (.storeInfo tag) s = .next (s.replied 0x36 tag true
      (([0, 1] : List BankNo).flatMap (fun k =>
        u16 (s.banks[k]).free.length ++ u16 (s.banks[k]).clearQ.length ++ u16 (s.banks[k]).retired.length ++
        u16 (((s.tracks.filter (fun x => decide (x.bank = k))).map (fun x => x.segs.length)).sum) ++
        u16 (s.targetCount k) ++ u16 (s.banks[k]).drain.length ++ flagByte (s.banks[k]).loadBuf.isSome ++
        optBytes 2 ((s.movingTrack? k).map (·.id))) ++
        u8 s.tracks.length ++ s.tracks.flatMap (fun x => u16 x.id ++ u8 x.state.code)))) ∧
  (∀ (tag : Byte) (first count : Nat) (s : State), s.ready → (511 < first ∨ count = 0 ∨ 128 < count ∨ 512 < first + count) →
    exec (.rosterRead tag first count) s = .next (s.refusedWith 0x42 tag .badArg 0)) ∧
  ∀ (tag : Byte) (first count : Nat) (s : State), s.ready → 1 ≤ count → count ≤ 128 → first + count ≤ 512 →
    exec (.rosterRead tag first count) s = .next (s.replied 0x42 tag true
      (u8 count ++ (((List.finRange 512).drop first).take count).flatMap (fun i =>
        match s.roster[i] with
        | none => u16 i.val ++ [0#8]
        | some e => u16 i.val ++ [1#8] ++ u32 e.receiver ++ [Config.rosterStateCode e.releasing] ++ u8 e.room.val ++
            u8 e.binding ++ u8 e.size ++ u8 e.volume ++ u8 e.releaseCount ++ optBytes 1 (e.former.map (·.val)) ++
            u8 e.forwardCount ++ flagByte (decide (i ∈ (s.rooms[e.room]).urgent)))))

/-! ### The roster -/

/-- R149 to R152: ASSIGN with a field out of range is refused BAD_ARG. Otherwise it takes the lowest free entry for a
new receiver, updates an entry in its own room in place, and moves an entry of another room, leaving a forward where
that room's directive path is open. The reply gives the index before the outcome (log 14). -/
def Obligations.AssignPostsAReceiver : Prop :=
  (∀ (tag : Byte) (rcv room binding size volume : Nat) (s : State), s.ready →
    (rcv = 0 ∨ 15 < room ∨ 3 < binding ∨ size = 0 ∨ 4 < size ∨ 7 < volume) →
    exec (.assign tag rcv room binding size volume) s = .next (s.refusedWith 0x40 tag .badArg 0)) ∧
  (∀ (tag : Byte) (rcv binding size volume : Nat) (r : RoomNo) (s : State), s.ready → 1 ≤ rcv → binding ≤ 3 →
     1 ≤ size → size ≤ 4 → volume ≤ 7 →
     let cmd := Instr.assign tag rcv r.val binding size volume
     let held (i : RosterIx) (e : RosterEntry) : Prop := s.roster[i] = some e ∧ e.receiver = rcv ∧
       ∀ (j : RosterIx) (f : RosterEntry), s.roster[j] = some f → f.receiver = rcv → i ≤ j
     let joined (l : List RosterIx) (i : RosterIx) : List RosterIx := if i ∈ l then l else l ++ [i]
     ((∀ (i : RosterIx) (e : RosterEntry), s.roster[i] = some e → e.receiver ≠ rcv) →
       ((∀ i : RosterIx, s.roster[i] ≠ none) → exec cmd s = .next (s.refusedWith 0x40 tag .noSpace 0)) ∧
       (∀ i : RosterIx, s.roster[i] = none → (∀ j : RosterIx, j < i → s.roster[j] ≠ none) →
         exec cmd s = .next { s with
           roster := s.roster.set i (some ⟨rcv, false, r, binding, size, volume, 0, none, 0⟩)
           rooms := s.rooms.set r { s.rooms[r] with
             rota := (s.rooms[r]).rota ++ [i]
             cursor := if (s.rooms[r]).rota = [] then some i else (s.rooms[r]).cursor
             urgent := joined (s.rooms[r]).urgent i }
           link := s.link.replied 0x40 tag true (u16 i.val ++ [0#8]) })) ∧
     (∀ (i : RosterIx) (e : RosterEntry), held i e → e.room = r →
       exec cmd s = .next { s with
         roster := s.roster.set i (some { e with
           releasing := false, releaseCount := 0, binding := binding, size := size, volume := volume })
         rooms := s.rooms.set r { s.rooms[r] with urgent := joined (s.rooms[r]).urgent i }
         link := s.link.replied 0x40 tag true (u16 i.val ++ [1#8]) }) ∧
     (s.receiversSound → ∀ (i : RosterIx) (e : RosterEntry), held i e → e.room ≠ r →
       ∃ t, exec cmd s = .next t ∧
         t.roster = s.roster.set i (some ⟨rcv, false, r, binding, size, volume, 0,
           if (s.rooms[e.room]).pathOpen then some e.room else none, if (s.rooms[e.room]).pathOpen then 2 else 0⟩) ∧
         (t.rooms[e.room]).rota = (s.rooms[e.room]).rota.filter (fun j => !decide (j = i)) ∧
         (t.rooms[r]).rota = (s.rooms[r]).rota ++ [i] ∧ i ∈ (t.rooms[r]).urgent ∧
         (i ∈ (t.rooms[e.room]).urgent ↔ (s.rooms[e.room]).pathOpen = true) ∧
         (∀ q : RoomNo, t.clock q = s.clock q ∧ (t.rooms[q]).comp = (s.rooms[q]).comp ∧
           (t.rooms[q]).bindings = (s.rooms[q]).bindings) ∧
         t.link = s.link.replied 0x40 tag true (u16 i.val ++ [2#8]) ∧ t.evu = s.evu ∧ t.lines = s.lines ∧
         sameStore s t ∧ sameOutside s t))

/-- R153: RELEASE is judged in order; a RELEASING entry is reported; an ASSIGNED one is freed at once where its room's
directive path is closed, and becomes RELEASING with release count 3 where it is open, its pending forward kept. The
reply gives the index before the outcome (log 14). -/
def Obligations.ReleaseFreesOrReturnsAReceiver : Prop :=
  ∀ (tag : Byte) (rcv : Nat) (s : State), s.ready →
    let held (i : RosterIx) (e : RosterEntry) : Prop := s.roster[i] = some e ∧ e.receiver = rcv ∧
      ∀ (j : RosterIx) (f : RosterEntry), s.roster[j] = some f → f.receiver = rcv → i ≤ j
    (rcv = 0 → exec (.release tag rcv) s = .next (s.refusedWith 0x41 tag .badArg 0)) ∧
    (rcv ≠ 0 → (∀ (i : RosterIx) (e : RosterEntry), s.roster[i] = some e → e.receiver ≠ rcv) →
      exec (.release tag rcv) s = .next (s.refusedWith 0x41 tag .notFound 0)) ∧
    (rcv ≠ 0 → ∀ (i : RosterIx) (e : RosterEntry), held i e → e.releasing = true →
      exec (.release tag rcv) s = .next (s.replied 0x41 tag true (u16 i.val ++ [3#8]))) ∧
    (rcv ≠ 0 → ∀ (i : RosterIx) (e : RosterEntry), held i e → e.releasing = false →
      (s.rooms[e.room]).pathOpen = true →
      exec (.release tag rcv) s = .next { s with
        roster := s.roster.set i (some { e with releasing := true, releaseCount := 3 })
        rooms := s.rooms.set e.room { s.rooms[e.room] with
          urgent := if i ∈ (s.rooms[e.room]).urgent then (s.rooms[e.room]).urgent
            else (s.rooms[e.room]).urgent ++ [i] }
        link := s.link.replied 0x41 tag true (u16 i.val ++ [3#8]) }) ∧
    (rcv ≠ 0 → ∀ (i : RosterIx) (e : RosterEntry), held i e → e.releasing = false →
      (s.rooms[e.room]).pathOpen = false →
      ∃ t, exec (.release tag rcv) s = .next t ∧ t.roster = s.roster.set i none ∧
        (t.rooms[e.room]).rota = (s.rooms[e.room]).rota.filter (fun j => !decide (j = i)) ∧
        i ∉ (t.rooms[e.room]).urgent ∧ (∀ a, e.former = some a → i ∉ (t.rooms[a]).urgent) ∧
        (∀ q : RoomNo, q ≠ e.room → e.former ≠ some q → t.rooms[q] = s.rooms[q]) ∧
        (∀ q : RoomNo, t.clock q = s.clock q ∧ (t.rooms[q]).comp = (s.rooms[q]).comp ∧
          (t.rooms[q]).bindings = (s.rooms[q]).bindings) ∧
        t.link = s.link.replied 0x41 tag true (u16 i.val ++ [4#8]) ∧ t.evu = s.evu ∧ t.lines = s.lines ∧
        sameStore s t ∧ sameOutside s t)

/-! ### What the bindings play -/

/-- R92 to R96, R99 to R102, R107: the activation of a caption or live binding at a round boundary. A TEXT binding whose
pages in hand are read out, and in which no staged cue but the head is due: a due head enters the window and its
SHOW is queued; one that is over is skipped; none enters a HELD room; into a full window it enters in place of the
earliest cue, whose CLEAR goes before its SHOW. A window cue leaves at its end frame with a CLEAR, its unsent repeats
gone, and is repeated at the carousel interval unless a SHOW of it waits or the repeat queue is full. A prompt queue of
16 messages gives up its oldest unsent SHOW, or the new one where it holds none, with FEED_OVERFLOW; a CLEAR cancels an
unsent SHOW of its cue silently; and one that finds no unsent SHOW collapses the feed. A live text enters an open
window, and leaves when its hold is spent. Whatever the feeds and the pages hold, no cue whose end frame is reached,
and no live cue whose hold is spent, is left in the window. The staging list is refilled from the pages in hand up to 8
cues: a whole cue joins it in start order with the next serial, or enters at once where it is due; text that runs past
the page stays in the parser until its rest arrives; a pad is passed, the END record taken, the fetched page read on to,
and malformed content makes the binding FAULTED. -/
def Obligations.CaptionsFollowThePosition : Prop :=
  (∀ (ctx : PCtx) (w : PWork) (sp : ServePage), w.b.state = .playing → w.b.loaded = true → w.b.kind = some .text →
    w.b.endTaken = false → w.b.serve = some sp → sp.fill ≤ sp.off →
    (∀ page base fill data, w.b.fetch ≠ .filled page base fill data) →
    (ctx.show_ = .armed ∨ ctx.show_ = .running ∨ ctx.show_ = .held) →
    let unsentShow (m : FeedMsg) : Prop := m.sent = 0 ∧ ∃ serial style text, m.body = .show_ serial style text
    let shows (serial : Nat) (m : FeedMsg) : Prop := ∃ style text, m.body = .show_ serial style text
    let unsentOf (serial : Nat) (m : FeedMsg) : Bool := decide (m.sent = 0) && decide (m.showSerial? = some serial)
    let begun (ms : List FeedMsg) : List FeedMsg := ms.filter (fun m => decide (m.sent ≠ 0))
    (∀ c rest, w.b.staging = c :: rest → (∀ d ∈ rest, ctx.pos < d.start) → c.start ≤ ctx.pos →
      let new : WinCue := ⟨c.serial, .frames c.start c.stop, c.style, c.text, none⟩
      let show_ : FeedMsg := ⟨.show_ c.serial c.style c.text, 0⟩
      (w.b.window = [] → ctx.show_ = .held → activate ctx w = { w with b := { w.b with block := none } }) ∧
      (w.b.window = [] → ctx.show_ ≠ .held → c.stop ≤ ctx.pos →
        activate ctx w = { w with b := { w.b with staging := rest, block := none } }) ∧
      (w.b.window = [] → ctx.show_ ≠ .held → ctx.pos < c.stop → w.b.prompt.length < 16 →
        activate ctx w = { w with b := { w.b with
          staging := rest, window := [new], prompt := w.b.prompt ++ [show_], block := none } }) ∧
      (∀ before old after, w.b.window = [] → ctx.show_ ≠ .held → ctx.pos < c.stop → 16 ≤ w.b.prompt.length →
        w.b.prompt = before ++ old :: after → unsentShow old → (∀ m ∈ before, ¬unsentShow m) →
        activate ctx w = { w with
          b := { w.b with staging := rest, window := [new], prompt := before ++ after ++ [show_], block := none }
          evs := w.evs ++ [.feedOverflow] }) ∧
      (w.b.window = [] → ctx.show_ ≠ .held → ctx.pos < c.stop → 16 ≤ w.b.prompt.length →
        (∀ m ∈ w.b.prompt, ¬unsentShow m) →
        ((∀ m ∈ w.b.prompt ++ w.b.rept, ¬shows c.serial m) → w.b.rept.length < 4 →
          activate ctx w = { w with
            b := { w.b with staging := rest, window := [new], rept := w.b.rept ++ [show_], block := none }
            evs := w.evs ++ [.feedOverflow] }) ∧
        ((∃ m ∈ w.b.prompt ++ w.b.rept, shows c.serial m) ∨ 4 ≤ w.b.rept.length →
          activate ctx w = { w with
            b := { w.b with staging := rest, window := [new], block := none }
            evs := w.evs ++ [.feedOverflow] })) ∧
      (∀ (oldest : WinCue) (others : List WinCue) (low high : Nat), w.b.window = oldest :: others → others.length = 3 →
        oldest.time = .frames low high → ctx.pos < high → low ≤ c.start →
        (∀ x ∈ others, ∃ first stop age, x.time = .frames first stop ∧ ctx.pos < stop ∧ low ≤ first ∧ first ≤ c.start ∧
          x.age = some age ∧ age + 1 < ctx.carousel) →
        ctx.show_ ≠ .held → ctx.pos < c.stop → w.b.prompt.length < 15 →
        activate ctx w = { w with b := { w.b with
          staging := rest
          window := others.map (fun x => { x with age := x.age.map (fun a => min 255 (a + 1)) }) ++ [new]
          prompt := w.b.prompt ++ [⟨.clear oldest.serial false, 0⟩, show_]
          rept := w.b.rept.filter (fun m => !unsentOf oldest.serial m)
          block := none } })) ∧
    (∀ (c : WinCue) (first stop : Nat), (∀ d ∈ w.b.staging, ctx.pos < d.start) → c.time = .frames first stop →
      let clear : FeedMsg := ⟨.clear c.serial false, 0⟩
      let kept := w.b.rept.filter (fun m => !unsentOf c.serial m)
      (w.b.window = [c] → stop ≤ ctx.pos → w.b.prompt.length < 16 →
        activate ctx w = { w with b := { w.b with
          window := [], prompt := w.b.prompt ++ [clear], rept := kept, block := none } }) ∧
      (∀ before m after, w.b.window = [c] → stop ≤ ctx.pos → 16 ≤ w.b.prompt.length →
        w.b.prompt = before ++ m :: after → unsentOf c.serial m = true → (∀ x ∈ before, unsentOf c.serial x = false) →
        activate ctx w = { w with b := { w.b with
          window := [], prompt := before ++ after, rept := kept, block := none } }) ∧
      (∀ before old after, w.b.window = [c] → stop ≤ ctx.pos → 16 ≤ w.b.prompt.length →
        w.b.prompt = before ++ old :: after → (∀ m ∈ w.b.prompt, unsentOf c.serial m = false) → unsentShow old →
        (∀ m ∈ before, ¬unsentShow m) →
        activate ctx w = { w with
          b := { w.b with window := [], prompt := before ++ after ++ [clear], rept := kept, block := none }
          evs := w.evs ++ [.feedOverflow] }) ∧
      (∀ (d : WinCue) (from_ upTo : Nat), w.b.window = [c, d] → d.time = .frames from_ upTo → stop ≤ ctx.pos →
        ctx.pos < upTo → 16 ≤ w.b.prompt.length → (∀ m ∈ w.b.prompt, ¬unsentShow m) →
        let collapsed (rept : List FeedMsg) : PWork := { w with
          b := { w.b with
            window := [{ d with age := none }], prompt := begun w.b.prompt ++ [⟨.wipe, 0⟩], rept := rept, block := none }
          evs := w.evs ++ [.feedOverflow] }
        let waits : Prop := (∃ m ∈ begun w.b.prompt ++ begun w.b.rept, shows d.serial m) ∨ 4 ≤ (begun w.b.rept).length
        (waits → activate ctx w = collapsed (begun w.b.rept)) ∧
        (¬waits → activate ctx w = collapsed (begun w.b.rept ++ [⟨.show_ d.serial d.style d.text, 0⟩]))) ∧
      (∀ age, w.b.window = [c] → ctx.pos < stop → c.age = some age →
        let waits : Prop := (∃ m ∈ w.b.prompt ++ w.b.rept, shows c.serial m) ∨ 4 ≤ w.b.rept.length
        let aged (rept : List FeedMsg) : PWork :=
          { w with b := { w.b with window := [{ c with age := some (min 255 (age + 1)) }], rept := rept, block := none } }
        (ctx.carousel ≤ min 255 (age + 1) → ¬waits →
          activate ctx w = aged (w.b.rept ++ [⟨.show_ c.serial c.style c.text, 0⟩])) ∧
        (min 255 (age + 1) < ctx.carousel ∨ waits → activate ctx w = aged w.b.rept)))) ∧
  (∀ (ctx : PCtx) (w : PWork), w.b.state = .playing → w.b.loaded = true → w.b.kind = some .live →
    (ctx.show_ = .armed ∨ ctx.show_ = .running ∨ ctx.show_ = .held) → w.b.prompt.length < 16 →
    (∀ before e after, w.b.window = [] → w.ring = before ++ e :: after → e.binding = ctx.ix →
      (∀ x ∈ before, x.binding ≠ ctx.ix) →
      activate ctx w = { w with
        b := { w.b with
          window := [⟨e.serial, .live e.hold e.notify, 0, e.text, none⟩]
          prompt := w.b.prompt ++ [⟨.show_ e.serial 0 e.text, 0⟩]
          block := none }
        ring := before ++ after }) ∧
    (∀ (c : WinCue) (hold : Nat) (notify : Bool), w.b.window = [c] → c.time = .live (hold + 1) notify →
      (∀ e ∈ w.ring, e.binding ≠ ctx.ix) →
      (hold = 0 → activate ctx w = { w with b := { w.b with
        window := [], prompt := w.b.prompt ++ [⟨.clear c.serial notify, 0⟩]
        rept := w.b.rept.filter (fun m => !(decide (m.sent = 0) && decide (m.showSerial? = some c.serial)))
        block := none } }) ∧
      (∀ age, 0 < hold → c.age = some age → age + 1 < ctx.carousel → activate ctx w = { w with b := { w.b with
        window := [{ c with time := .live hold notify, age := some (min 255 (age + 1)) }], block := none } }))) ∧
  (∀ (ctx : PCtx) (w : PWork), w.b.state = .playing → w.b.loaded = true → w.b.kind = some .text →
    (ctx.show_ = .armed ∨ ctx.show_ = .running ∨ ctx.show_ = .held) →
    ∀ c ∈ (activate ctx w).b.window, ∀ first stop, c.time = .frames first stop → ctx.pos < stop) ∧
  (∀ (ctx : PCtx) (w : PWork), w.b.state = .playing → w.b.loaded = true → w.b.kind = some .live →
    (ctx.show_ = .armed ∨ ctx.show_ = .running ∨ ctx.show_ = .held) → (∀ e ∈ w.ring, 1 ≤ e.hold) →
    ∀ c ∈ (activate ctx w).b.window, ∀ notify, c.time ≠ .live 0 notify) ∧
  ∀ (ctx : PCtx) (w : PWork) (v : TrackView) (sp : ServePage), ctx.track = some v → v.kind = .text →
    w.b.state = .playing → w.b.loaded = true → w.b.kind = some .text → w.b.endTaken = false → w.b.window = [] →
    w.b.serve = some sp → sp.data.length = sp.fill →
    (ctx.show_ = .armed ∨ ctx.show_ = .running ∨ ctx.show_ = .held) →
    let waits (start : Nat) : Prop := ctx.pos < start ∨ ctx.show_ = .held
    (∀ d ∈ w.b.staging, waits d.start) →
    let item := sp.data.drop sp.off
    let numbered : Nat := if w.b.nextSerial = 65535 then 1 else w.b.nextSerial + 1
    let noPage : Prop := ∀ page base fill data, w.b.fetch ≠ .filled page base fill data
    let joins (c : Cue) (l : List Cue) : Prop := ∃ before later, w.b.staging = before ++ later ∧
      l = before ++ c :: later ∧ (∀ d ∈ before, d.start ≤ c.start) ∧ ∀ d ∈ later.head?, c.start < d.start
    let readTo (off : Nat) (b : Binding) : Binding := { b with serve := some { sp with off := off }, block := none }
    let stops (off : Nat) : Prop := off = sp.fill ∨ (off < sp.fill ∧ w.b.staging.length = 7)
    (8 ≤ w.b.staging.length → noPage → activate ctx w = { w with b := { w.b with block := none } }) ∧
    (w.b.staging.length < 8 → noPage → sp.off < sp.fill → w.b.part = none →
      (∀ h, readHeader .text item = some h →
        let c : Cue := ⟨w.b.nextSerial, h.start, h.stop, h.style, (item.drop 12).take h.len⟩
        (∀ l, joins c l → stops (sp.off + 12 + h.len) → waits h.start →
          activate ctx w = { w with
            b := readTo (sp.off + 12 + h.len) { w.b with staging := l, nextSerial := numbered } }) ∧
        (w.b.staging = [] → sp.off + 12 + h.len = sp.fill → ctx.show_ ≠ .held → h.start ≤ ctx.pos → ctx.pos < h.stop →
          w.b.prompt.length < 16 →
          activate ctx w = { w with
            b := readTo sp.fill { w.b with
              nextSerial := numbered, window := [⟨c.serial, .frames c.start c.stop, c.style, c.text, none⟩]
              prompt := w.b.prompt ++ [⟨.show_ c.serial c.style c.text, 0⟩] } }) ∧
        (sp.fill < sp.off + 12 + h.len →
          activate ctx w = { w with
            b := readTo sp.fill { w.b with
              nextSerial := numbered
              part := some ⟨w.b.nextSerial, h.start, h.stop, h.style, h.len, item.drop 12⟩ } })) ∧
      (item = [0x00#8] → activate ctx w = { w with b := readTo sp.fill w.b }) ∧
      (sp.page = v.last → sp.off + 12 = sp.fill → item.head? = some 0x0F#8 →
        activate ctx w = { w with
          b := readTo sp.fill { w.b with
            endTaken := true, state := if w.b.staging = [] then .finished else .playing } }) ∧
      ((∃ b rest, item = b :: rest ∧
          ((b = 0x00#8 ∧ rest ≠ []) ∨ (b = 0x0F#8 ∧ ¬(sp.page = v.last ∧ sp.off + 12 = sp.fill)) ∨
            (b ≠ 0x00#8 ∧ b ≠ 0x0F#8 ∧ readHeader .text item = none))) →
        activate ctx w = { w with
          b := { w.b with
            state := .faulted, issued := w.b.issued.map (fun x => { x with stale := true }), fetch := .empty
            serve := none, loaded := false, part := none, skipTo := none, locate := .none, staging := [], clip := none
            nextClip := .none, scan := none, block := none }
          evs := w.evs ++ [.pageCheck] })) ∧
    (∀ pc l, w.b.staging.length < 8 → noPage → sp.off < sp.fill → w.b.part = some pc →
      let n := pc.textLen - pc.got.length
      let c : Cue := ⟨pc.serial, pc.start, pc.stop, pc.style, pc.got ++ item.take n⟩
      joins c l → stops (sp.off + n) → waits pc.start →
      activate ctx w = { w with b := readTo (sp.off + n) { w.b with staging := l, part := none } }) ∧
    (∀ (page : TrackPage) (base fill : Nat) (data : List Byte) (h : Header) (g : SegNo) (l : List Cue),
      w.b.staging.length < 8 → sp.fill ≤ sp.off → w.b.part = none → w.b.fetch = .filled page base fill data →
      data.length = fill → page ≠ v.last → w.b.issued = none → segOf? v.segs page.next.ord = some g →
      readHeader .text data = some h → 12 + h.len = fill → waits h.start →
      joins ⟨w.b.nextSerial, h.start, h.stop, h.style, data.drop 12⟩ l →
      activate ctx w = { w with
        b := { w.b with
          serve := some ⟨page, base, fill, fill, data⟩, staging := l, nextSerial := numbered, block := none
          issued := some ⟨g, page.next, w.b.gen, false⟩, fetch := .requested page.next (base + fill) false false }
        reqs := w.reqs ++ [⟨ctx.room, ctx.ix, w.b.gen, g, page.next.pg⟩] })

/-- R88, R109 to R113, R142: the activation of a VOICE binding. A clip under way in a RUNNING room: a block in hand, in
the serve page or straddling into the fetched page, is consumed and becomes the round's voice block; one not in hand
makes the binding STARVED, with UNDERRUN; the last block ends the clip, and the item behind it is read: the next clip
header, which takes the next serial (R92), the END record with which the binding is FINISHED, or nothing yet. In ARMED
and HELD, and while STARVED, nothing is consumed. Six frames after its stop frame a clip is cut, its unsent bytes
passed over; so is one whose successor's start is reached, and that one sends its block at once. Without a clip, a next
clip header waits for its start frame; a reached one becomes current at the block of the position, is skipped where its
blocks are over, or starves its binding where the block lies on the page still to come (starving at that same boundary
is the model's choice, log 32). A voice block fills the binding's first two slots of the round. A binding that has
become FAULTED, or sends no block, fills its slots with FILL (R87, R142). -/
def Obligations.VoiceBlocksAreSentInTurn : Prop :=
  (∀ (ctx : PCtx) (w : PWork) (v : TrackView) (c : Clip) (sp : ServePage), ctx.track = some v → w.b.kind = some .voice →
    let numbered : Nat := if w.b.nextSerial = 65535 then 1 else w.b.nextSerial + 1
    w.b.loaded = true → w.b.clip = some c → w.b.serve = some sp → sp.data.length = sp.fill →
    (ctx.show_ = .armed ∨ ctx.show_ = .running ∨ ctx.show_ = .held) →
    let ends := c.bodyOff + 32 * c.blocks
    let ahead : Prop := w.b.nextClip = .none ∧ sp.base + sp.fill ≤ ends ∧
      ∀ page base fill data, w.b.fetch = .filled page base fill data → base + fill ≤ ends
    let later : Prop := ∃ first stop blocks, w.b.nextClip = .header first stop blocks ∧ ctx.pos < first
    let noPage : Prop := ∀ page base fill data, w.b.fetch ≠ .filled page base fill data
    let atBlock : Prop := sp.base + sp.off = c.bodyOff + 32 * c.index ∧ w.b.skipTo = none
    (ctx.pos < c.stop + 6 → ahead ∨ later ∨ w.b.nextClip = .endMark →
      ((w.b.state = .starved ∨ (w.b.state = .playing ∧ ctx.show_ ≠ .running)) →
        activate ctx w = { w with b := { w.b with block := none } }) ∧
      (w.b.state = .playing → ctx.show_ = .running → atBlock → sp.off + 32 < sp.fill → c.index + 1 < c.blocks →
        activate ctx w = { w with b := { w.b with
          serve := some { sp with off := sp.off + 32 }
          clip := some { c with index := c.index + 1 }
          block := some ((sp.data.drop sp.off).take 32) } }) ∧
      (∀ (k base fill : Nat) (data : List Byte), w.b.state = .playing → ctx.show_ = .running → atBlock →
        sp.off + k = sp.fill → 0 < k → k < 32 → w.b.fetch = .filled sp.page.next base fill data → data.length = fill →
        32 ≤ k + fill → c.index + 1 < c.blocks →
        let moved (b : Binding) : Binding := { b with
          serve := some ⟨sp.page.next, base, 32 - k, fill, data⟩
          clip := some { c with index := c.index + 1 }
          block := some (sp.data.drop sp.off ++ data.take (32 - k)) }
        (sp.page.next = v.last → activate ctx w = { w with b := moved { w.b with fetch := .empty } }) ∧
        (∀ g, sp.page.next ≠ v.last → w.b.issued = none → segOf? v.segs sp.page.next.next.ord = some g →
          activate ctx w = { w with
            b := moved { w.b with
              fetch := .requested sp.page.next.next (base + fill) false false
              issued := some ⟨g, sp.page.next.next, w.b.gen, false⟩ }
            reqs := w.reqs ++ [⟨ctx.room, ctx.ix, w.b.gen, g, sp.page.next.next.pg⟩] })) ∧
      (w.b.state = .playing → ctx.show_ = .running → sp.fill < sp.off + 32 → noPage →
        activate ctx w = { w with b := { w.b with state := .starved, block := none }, evs := w.evs ++ [.underrun] }) ∧
      (w.b.state = .playing → ctx.show_ = .running → atBlock → c.index + 1 = c.blocks → w.b.endTaken = false →
        w.b.locate = .none →
        let spent (off : Nat) (b : Binding) : Binding := { b with
          serve := some { sp with off := off }, clip := none, block := some ((sp.data.drop sp.off).take 32) }
        (∀ h, readHeader .voice (sp.data.drop (sp.off + 32)) = some h → v.kind = .voice → sp.off + 44 < sp.fill →
          w.b.nextClip = .header h.start h.stop h.len →
          activate ctx w = { w with b := spent (sp.off + 44) { w.b with nextSerial := numbered } }) ∧
        (sp.page = v.last → sp.off + 44 = sp.fill → noPage → sp.data[sp.off + 32]? = some 0x0F#8 →
          w.b.nextClip = .endMark →
          activate ctx w = { w with
            b := spent sp.fill { w.b with state := .finished, nextClip := .none, endTaken := true } }) ∧
        (sp.off + 32 = sp.fill → noPage → w.b.nextClip = .none →
          activate ctx w = { w with b := spent sp.fill w.b }))) ∧
    (w.b.state = .playing ∨ w.b.state = .starved → w.b.endTaken = false →
      let cut (b : Binding) : Binding := { b with state := .playing, clip := none, locate := .none, block := none }
      (c.stop + 6 ≤ ctx.pos → ahead → noPage → sp.page ≠ v.last → sp.off ≤ sp.fill →
        activate ctx w = { w with b := cut { w.b with
          nextClip := .none, skipTo := some ends, serve := some { sp with off := sp.fill } } }) ∧
      (∀ h, readHeader .voice (sp.data.drop (ends - sp.base)) = some h → v.kind = .voice → sp.base + sp.off ≤ ends →
        ends + 12 < sp.base + sp.fill → w.b.nextClip = .header h.start h.stop h.len →
        (c.stop + 6 ≤ ctx.pos → ctx.pos < h.start →
          activate ctx w = { w with b := cut { w.b with
            skipTo := none, nextSerial := numbered, serve := some { sp with off := ends - sp.base + 12 } } }) ∧
        (ctx.show_ = .running → h.start ≤ ctx.pos →
          let n := (ctx.pos - h.start) * 50 / ctx.rate
          let at_ := ends - sp.base + 12 + 32 * n
          (∃ page base retry held, w.b.fetch = .requested page base retry held) → n + 1 < h.len → at_ + 32 < sp.fill →
          sp.base + sp.fill ≤ ends + 12 + 32 * h.len →
          activate ctx w = { w with b := { w.b with
            state := .playing, locate := .none, nextClip := .none, skipTo := none, nextSerial := numbered
            clip := some ⟨h.start, h.stop, h.len, n + 1, ends + 12⟩
            serve := some { sp with off := at_ + 32 }
            block := some ((sp.data.drop at_).take 32) } })))) ∧
  (∀ (ctx : PCtx) (w : PWork) (v : TrackView) (sp : ServePage) (first stop blocks : Nat), ctx.track = some v →
    w.b.kind = some .voice → w.b.state = .playing → w.b.loaded = true → w.b.endTaken = false → w.b.clip = none →
    w.b.nextClip = .header first stop blocks → w.b.serve = some sp → sp.data.length = sp.fill → sp.off ≤ sp.fill →
    w.b.skipTo = none → w.b.locate = .none → w.b.scan = none →
    (ctx.show_ = .armed ∨ ctx.show_ = .running ∨ ctx.show_ = .held) →
    (∃ base retry held, w.b.fetch = .requested sp.page.next base retry held) → sp.page ≠ v.last →
    let body := sp.base + sp.off
    let n := (ctx.pos - first) * 50 / ctx.rate
    sp.base + sp.fill ≤ body + 32 * blocks →
    let current (index off : Nat) (b : Binding) : Binding := { b with
      nextClip := .none, clip := some ⟨first, stop, blocks, index, body⟩, serve := some { sp with off := off } }
    (ctx.pos < first → activate ctx w = { w with b := { w.b with block := none } }) ∧
    (first ≤ ctx.pos → ctx.show_ = .running → n + 1 < blocks → sp.off + 32 * n + 32 < sp.fill →
      activate ctx w = { w with b := { current (n + 1) (sp.off + 32 * n + 32) w.b with
        block := some ((sp.data.drop (sp.off + 32 * n)).take 32) } }) ∧
    (first ≤ ctx.pos → ctx.show_ ≠ .running → n < blocks → sp.off + 32 * n + 32 ≤ sp.fill →
      activate ctx w = { w with b := { current n (sp.off + 32 * n) w.b with block := none } }) ∧
    (first ≤ ctx.pos → blocks ≤ n →
      activate ctx w = { w with b := { w.b with
        nextClip := .none, skipTo := some (body + 32 * blocks), serve := some { sp with off := sp.fill }
        block := none } }) ∧
    (first ≤ ctx.pos → ctx.show_ = .running → ctx.pos < stop + 6 → n < blocks → sp.fill ≤ sp.off + 32 * n → 0 < n →
      sp.off + 32 * n + 32 ≤ sp.fill + 2048 →
      activate ctx w = { w with
        b := { current n sp.off w.b with state := .starved, locate := .block, block := none }
        evs := w.evs ++ [.underrun] })) ∧
  (∀ (i : BindNo) (b : Binding) (block : List Byte), b.block = some block →
     voiceSlot i b 0 = u8 (i.val + 1) ++ [0x80#8] ++ block.take 16 ∧
     voiceSlot i b 1 = u8 (i.val + 1) ++ [0x41#8] ++ block.drop 16 ∧
     ∀ n, 2 ≤ n → voiceSlot i b n = [0x00#8, 0xC0#8] ++ List.replicate 16 0xFF#8) ∧
  (∀ (i : BindNo) (b : Binding) (n : Nat), b.block = none →
    voiceSlot i b n = [0x00#8, 0xC0#8] ++ List.replicate 16 0xFF#8) ∧
  ∀ (ctx : PCtx) (w : PWork), w.b.state ≠ .faulted → (activate ctx w).b.state = .faulted →
    (activate ctx w).b.block = none

/-! ### The array completes -/

/-- R7, R20, R23, R74, R83, R84, R86: a page fetch that completes leaves the fetch queue and lowers its segment's
count, and its result goes to the binding: nothing but a held request comes of a stale one; a page fills the buffer, or
is served at once with the next page requested; a first CHECK_FAIL is fetched again and a second makes the binding
FAULTED. In every state of the binding, PRIMING and STARVED among them, what becomes of it is the work of one fetch
result on it, which the statement on landing scans takes further. One that completes after SOFT_RESET leaves the queue
and lowers the count too, and nothing else comes of it: no delivery (log 35) and no change of a pool; the DONE of
SOFT_RESET follows when both banks are quiescent. -/
def Obligations.FetchesAnswerTheirBinding : Prop :=
  (∀ (k j : BankNo) (seen : Option PageView) (q : FetchReq) (s : State), s.powered = true →
    (s.banks[k]).op = some (.fetch q) → (s.banks[k]).halted = true → j ≠ k →
    let old := (s.banks[k]).segs[q.seg]
    let quiescent : Prop := s.link.resetting = true ∧ (s.banks[j]).op = none
    ∃ t, exec (.fetchComplete k seen) s = .next t ∧
      t.banks[k] = { s.banks[k] with
        op := none, fetchQ := (s.banks[k]).fetchQ.drop 1
        segs := (s.banks[k]).segs.set q.seg { old with refs := old.refs - 1 } } ∧
      t.rooms = s.rooms ∧ t.arrays = s.arrays ∧ t.tracks = s.tracks ∧ t.roster = s.roster ∧ t.lines = s.lines ∧
      t.evu = s.evu ∧ t.banks[j] = s.banks[j] ∧ sameOutside s t ∧ (¬quiescent → t.link = s.link) ∧
      ∀ place, quiescent → s.openPlace? 0x02 0 = some place → t.link = s.link.answer place true []) ∧
  ∀ (k : BankNo) (seen : Option PageView) (q : FetchReq) (s : State), s.powered = true →
    (s.banks[k]).op = some (.fetch q) → (s.banks[k]).halted = false →
    let b := s.binding q.room q.binding
    let result := judgePage (seen.getD ((s.arrays[k]).view q.seg q.page))
    let old := (s.banks[k]).segs[q.seg]
    let cmd := Instr.fetchComplete k seen
    let quiet (t : State) : Prop :=
      t.arrays = s.arrays ∧ t.tracks = s.tracks ∧ t.roster = s.roster ∧ sameOtherRooms s t q.room ∧
        (∀ j : BindNo, j ≠ q.binding → t.binding q.room j = s.binding q.room j) ∧
        (t.rooms[q.room]).comp = (s.rooms[q.room]).comp ∧ t.clock q.room = s.clock q.room ∧ sameReceiver s t ∧
        t.link.inbound = s.link.inbound ∧ sameOutside s t
    let silent (t : State) : Prop := quiet t ∧ t.link = s.link ∧ t.evu = s.evu
    let noRequest (t : State) : Prop :=
      (t.banks[k]).fetchQ = (s.banks[k]).fetchQ.drop 1 ∧ ((t.banks[k]).segs[q.seg]).refs = old.refs - 1 ∧
        ((old.refs = 1 ∧ old.pool = .drain) →
          ((t.banks[k]).segs[q.seg]).pool = .clearQueue ∧ (t.banks[k]).clearQ = (s.banks[k]).clearQ ++ [q.seg])
    let requested (t : State) (g : SegNo) (page : TrackPage) : Prop :=
      (t.binding q.room q.binding).issued = some ⟨g, page, b.gen, false⟩ ∧
        (t.banks[b.bank]).fetchQ =
          (if b.bank = k then (s.banks[b.bank]).fetchQ.drop 1 else (s.banks[b.bank]).fetchQ) ++
            [⟨q.room, q.binding, b.gen, g, page.pg⟩]
    let stored (g : SegNo) (page last : TrackPage) : Prop := ∃ id tr sm, b.track = .stored id ∧
      s.track? id = some tr ∧ tr.summary = some sm ∧ sm.endPage = last ∧
      ∃ e ∈ tr.segs, e.ord = page.ord ∧ e.seg = g ∧ ∀ e' ∈ tr.segs, e'.ord = page.ord → e'.seg = g
    (∃ t, exec cmd s = .next t ∧ quiet t ∧ NoticesOnly s t ∧
      let w := takeResult q.gen result (s.pctx q.room q.binding) ⟨b, (s.rooms[q.room]).ring, [], []⟩
      t.binding q.room q.binding = w.b ∧ (∀ x ∈ w.reqs, x ∈ (t.banks[w.b.bank]).fetchQ) ∧
        ∀ c ∈ w.evs, (t.evu.latch (.room q.room c)).set_ = true) ∧
    (b.issued = none → ∃ t, exec cmd s = .next t ∧ silent t ∧ noRequest t ∧ t.binding q.room q.binding = b) ∧
    (∀ i, b.issued = some i → (i.stale = true ∨ q.gen ≠ b.gen) →
      ((∀ page base retry, b.fetch ≠ .requested page base retry true) →
        ∃ t, exec cmd s = .next t ∧ silent t ∧ noRequest t ∧
          t.binding q.room q.binding = { b with issued := none }) ∧
      (∀ page base retry g last, b.fetch = .requested page base retry true → stored g page last →
        ∃ t, exec cmd s = .next t ∧ silent t ∧ requested t g page ∧
          (t.binding q.room q.binding).fetch = .requested page base retry false)) ∧
    (∀ i page base retry held, b.issued = some i → i.stale = false → q.gen = b.gen →
      b.fetch = .requested page base retry held →
      (∀ g last, result = none → retry = false → stored g page last →
        ∃ t, exec cmd s = .next t ∧ silent t ∧ requested t g page ∧
          (t.binding q.room q.binding).fetch = .requested page base true false ∧
          (t.binding q.room q.binding).state = b.state) ∧
      (result = none → retry = true →
        ∃ t, exec cmd s = .next t ∧ quiet t ∧ noRequest t ∧ NoticesOnly s t ∧
          RaisedOnce s t (.room q.room .pageCheck) ∧ sameOtherEvents s t (.room q.room .pageCheck) ∧
          t.binding q.room q.binding = { b with
            state := .faulted, issued := none, fetch := .empty, serve := none, loaded := false, endTaken := false,
            part := none, skipTo := none, locate := .none, staging := [], clip := none, nextClip := .none,
            scan := none, block := none }) ∧
      (∀ fill data sp, result = some (fill, data) → b.state = .playing → b.loaded = true → b.serve = some sp →
        sp.off < sp.fill → (b.kind = some .text ∨ (b.kind = some .voice ∧ b.clip ≠ none ∧ b.locate = .none)) →
        ∃ t, exec cmd s = .next t ∧ silent t ∧ noRequest t ∧
          t.binding q.room q.binding = { b with issued := none, fetch := .filled page base fill data }) ∧
      (∀ fill data, result = some (fill, data) → b.state = .playing → b.loaded = true → b.kind = some .text →
        (b.serve = none ∨ ∃ sp, b.serve = some sp ∧ sp.fill ≤ sp.off) →
        (∀ g, stored g page page → ∃ t, exec cmd s = .next t ∧ silent t ∧ noRequest t ∧
          t.binding q.room q.binding =
            { b with issued := none, fetch := .empty, serve := some ⟨page, base, 0, fill, data⟩ }) ∧
        (∀ g last, page.pg < 63 → last ≠ page → stored g ⟨page.ord, page.pg + 1⟩ last →
          ∃ t, exec cmd s = .next t ∧ silent t ∧ requested t g ⟨page.ord, page.pg + 1⟩ ∧
            (t.binding q.room q.binding).fetch = .requested ⟨page.ord, page.pg + 1⟩ (base + fill) false false ∧
            (t.binding q.room q.binding).serve = some ⟨page, base, 0, fill, data⟩)))

/-- R116 to R125, R89: what the page that arrives does to a PRIMING binding, and to a STARVED one. The start segment is
the last whose entry frame is at or below the seek position less the longest span, or ordinal 0. A page that does not
open on the entry frame's cue steps back one ordinal. On one that does, the scan reads, each header of a text cue or a
clip taking the next serial: a text cue that starts beyond
the seek position is staged and the binding lands; a clip still to come waits as the next clip header; a clip under way
is entered at the block of the position, whose page is reckoned and requested where it lies beyond; a clip that is over
is passed over, to the byte after it on this page, on a page reckoned and requested, or, beyond the end of the track,
to the END record of the last page; the END record is taken; malformed content makes it FAULTED. Candidates are the
last four cues not over. The track's last page, sought for its END record, lands the binding or makes it FAULTED. A
page that holds the block targeted, or the rest of it, lands a PRIMING binding. A STARVED binding, its look-ahead
having found nothing, goes on at the block of the position when the page that holds it arrives, requests the page
reckoned where it lies beyond, and passes over a clip whose blocks are over. Offsets count from the start page (log
17). A request made behind the one issued in the same event is held (R82). The last page is requested for its END
record even where it is in hand (log 31). -/
def Obligations.LandingScansFindThePosition : Prop :=
  (∀ (v : TrackView) (pos : Nat),
    (∀ before e later, v.segs = before ++ e :: later → e.entry ≤ pos - v.longest →
      (∀ x ∈ later, pos - v.longest < x.entry) → startSegment v pos = e) ∧
    ∀ e later, v.segs = e :: later → e.ord = 0 → (∀ x ∈ v.segs, pos - v.longest < x.entry) →
      startSegment v pos = e) ∧
  (∀ (pos : Nat) (c : Cue) (w : PWork) (sc : Scan), w.b.scan = some sc →
    (c.stop ≤ pos → keepCandidate pos c w = w) ∧
    (pos < c.stop → sc.cands.length < 4 →
      keepCandidate pos c w = { w with b := { w.b with scan := some { sc with cands := sc.cands ++ [c] } } }) ∧
    (pos < c.stop → 4 ≤ sc.cands.length →
      keepCandidate pos c w = { w with b := { w.b with scan := some { sc with cands := sc.cands.drop 1 ++ [c] } } })) ∧
  (∀ (ctx : PCtx) (w : PWork) (v : TrackView) (i : Issued) (page : TrackPage) (base fill : Nat) (retry held : Bool)
      (data : List Byte) (sc : Scan),
    ctx.track = some v → w.b.issued = some i → i.stale = false → w.b.fetch = .requested page base retry held →
    data.length = fill → w.b.state = .priming → w.b.scan = some sc → sc.phase = .opening → sc.cands = [] →
    sc.target = none → w.b.part = none → w.b.serve = none → w.b.staging = [] → w.b.endTaken = false →
    w.b.skipTo = none → w.b.locate = .none → w.b.nextClip = .none →
    let arrived := takeResult w.b.gen (some (fill, data)) ctx w
    let after (n : Nat) : Nat := if n = 65535 then 1 else n + 1
    let numbered : Nat := after w.b.nextSerial
    let opens : Prop := sc.trialOrd = 0 ∨ ∃ h, readHeader v.kind data = some h ∧ h.start < h.stop ∧
      h.start = sc.trialEntry
    let bound : Prop := (w.b.kind = some .text ∧ v.kind = .text) ∨ (w.b.kind = some .voice ∧ v.kind = .voice)
    let asked (p : TrackPage) (g : SegNo) : FetchReq := ⟨ctx.room, ctx.ix, w.b.gen, g, p.pg⟩
    let issue (p : TrackPage) (g : SegNo) : Option Issued := some ⟨g, p, w.b.gen, false⟩
    let reckoned (j x : Nat) : Prop := 0 < j ∧ page.pg + j ≤ 63 ∧ (∀ m, m < j → v.last ≠ ⟨page.ord, page.pg + m⟩) ∧
      fill + 2048 * (j - 1) ≤ x ∧ x < fill + 2048 * j
    let seeking (g : SegNo) (j : Nat) (b : Binding) : PWork := { w with
      b := { b with
        issued := some ⟨g, page.next, w.b.gen, decide (1 < j)⟩
        fetch := .requested ⟨page.ord, page.pg + j⟩ (fill + 2048 * (j - 1)) false (decide (1 < j)) }
      reqs := w.reqs ++ [asked page.next g] }
    (∀ o e, ¬opens → sc.trialOrd = o + 1 → v.segs.find? (fun x => decide (x.ord = o)) = some e →
      arrived = { w with
        b := { w.b with
          issued := issue ⟨o, 0⟩ e.seg, fetch := .requested ⟨o, 0⟩ 0 false false
          scan := some { sc with trialOrd := o, trialEntry := e.entry } }
        reqs := w.reqs ++ [asked ⟨o, 0⟩ e.seg] }) ∧
    (opens → bound → page ≠ v.last → ∀ h g, readHeader v.kind data = some h → segOf? v.segs page.next.ord = some g →
      sc.seekPos < h.stop →
      let landed (b : Binding) (off : Nat) : PWork := { w with
        b := { b with
          state := .playing, loaded := true, scan := none, locate := .none
          issued := issue page.next g, fetch := .requested page.next fill false false
          serve := some ⟨page, 0, off, fill, data⟩ }
        reqs := w.reqs ++ [asked page.next g]
        evs := w.evs ++ [.landed] }
      (v.kind = .text → sc.seekPos < h.start → 12 + h.len ≤ fill →
        arrived = landed { w.b with
          staging := [⟨w.b.nextSerial, h.start, h.stop, h.style, (data.drop 12).take h.len⟩]
          nextSerial := numbered, clip := none } (12 + h.len)) ∧
      (v.kind = .voice → ctx.pos < h.start →
        arrived = landed { w.b with
          nextClip := .header h.start h.stop h.len, nextSerial := numbered, clip := none } 12) ∧
      (v.kind = .voice → h.start ≤ ctx.pos → ctx.pos < h.stop + 6 →
        let n := (ctx.pos - h.start) * 50 / ctx.rate
        n < h.len → 12 + 32 * n + 32 ≤ fill →
        arrived = landed { w.b with
          clip := some ⟨h.start, h.stop, h.len, n, 12⟩, nextSerial := numbered } (12 + 32 * n)) ∧
      (v.kind = .voice → h.start ≤ ctx.pos →
        let n := (ctx.pos - h.start) * 50 / ctx.rate
        let ends := 12 + 32 * h.len
        (∀ j, ctx.pos < h.stop + 6 → n < h.len → reckoned j (12 + 32 * n) → 12 + 32 * n + 32 ≤ fill + 2048 * j →
          arrived = seeking g j { w.b with
            scan := some { sc with phase := .targeting, target := some ⟨h.start, h.stop, h.len, n, 12⟩ }
            nextSerial := numbered, serve := some ⟨page, 0, 12, fill, data⟩ }) ∧
        (ctx.pos < h.stop + 6 → n < h.len → 12 + 32 * n < fill → fill < 12 + 32 * n + 32 →
          arrived = { w with
            b := { w.b with
              scan := some { sc with phase := .targeting, target := some ⟨h.start, h.stop, h.len, n, 12⟩ }
              issued := issue page.next g, fetch := .requested page.next fill false false
              nextSerial := numbered, serve := some ⟨page, 0, 12 + 32 * n, fill, data⟩ }
            reqs := w.reqs ++ [asked page.next g] }) ∧
        (h.stop + 6 ≤ ctx.pos ∨ h.len ≤ n →
          (∀ j, reckoned j ends → arrived = seeking g j { w.b with
            scan := some { sc with phase := .reading }, skipTo := some ends, nextSerial := numbered
            serve := some ⟨page, 0, fill, fill, data⟩ }) ∧
          ∀ h', readHeader .voice (data.drop ends) = some h' → sc.seekPos < h'.stop → ctx.pos < h'.start →
            ends + 12 ≤ fill →
            arrived = landed { w.b with
              nextClip := .header h'.start h'.stop h'.len, nextSerial := after numbered, clip := none } (ends + 12)))) ∧
    (opens → bound → page = v.last → v.kind = .voice → ∀ h g, readHeader .voice data = some h →
      segOf? v.segs page.ord = some g → sc.seekPos < h.stop → h.start ≤ ctx.pos →
      (h.stop + 6 ≤ ctx.pos ∨ h.len ≤ (ctx.pos - h.start) * 50 / ctx.rate) → fill ≤ 12 + 32 * h.len →
      arrived = { w with
        b := { w.b with
          scan := some { sc with phase := .reading }, locate := .endPage, issued := issue page g, nextSerial := numbered
          fetch := .requested page 0 false false, serve := some ⟨page, 0, fill, fill, data⟩ }
        reqs := w.reqs ++ [asked page g] }) ∧
    (opens → bound → page = v.last → fill = 12 → data.head? = some 0x0F#8 →
      arrived = { w with
        b := { w.b with
          state := .playing, loaded := true, scan := none, locate := .none, issued := none, fetch := .empty
          serve := some ⟨page, 0, 12, 12, data⟩, endTaken := true, clip := none }
        evs := w.evs ++ [.landed] }) ∧
    (opens → bound → page = v.last → (∀ x, data.head? = some x → x ≠ 0x00#8 ∧ x ≠ 0x0F#8) → 0 < fill →
      readHeader v.kind data = none →
      arrived = { w with
        b := { w.b with
          state := .faulted, loaded := false, scan := none, locate := .none, issued := none, fetch := .empty
          serve := none, clip := none, block := none }
        evs := w.evs ++ [.pageCheck] })) ∧
  (∀ (ctx : PCtx) (w : PWork) (i : Issued) (page : TrackPage) (base fill : Nat) (retry held : Bool)
      (data : List Byte) (sc : Scan),
    w.b.issued = some i → i.stale = false → w.b.fetch = .requested page base retry held → data.length = fill →
    w.b.state = .priming → w.b.kind = some .voice → w.b.scan = some sc → sc.phase = .reading → sc.cands = [] →
    sc.target = none → w.b.locate = .endPage →
    let arrived := takeResult w.b.gen (some (fill, data)) ctx w
    (12 ≤ fill → data[fill - 12]? = some 0x0F#8 →
      arrived = { w with
        b := { w.b with
          state := .playing, loaded := true, scan := none, locate := .none, issued := none, fetch := .empty
          serve := some ⟨page, base, fill, fill, data⟩, endTaken := true, skipTo := none, clip := none }
        evs := w.evs ++ [.landed] }) ∧
    ((fill < 12 ∨ data[fill - 12]? ≠ some 0x0F#8) →
      arrived.b.state = .faulted ∧ arrived.b.scan = none ∧ arrived.b.serve = none ∧ arrived.b.fetch = .empty ∧
        arrived.evs = w.evs ++ [.pageCheck])) ∧
  (∀ (ctx : PCtx) (w : PWork) (v : TrackView) (i : Issued) (page : TrackPage) (base fill : Nat) (retry held : Bool)
      (data : List Byte) (sp : ServePage) (sc : Scan) (c : Clip) (g : SegNo),
    ctx.track = some v → w.b.issued = some i → i.stale = false → w.b.fetch = .requested page base retry held →
    data.length = fill → w.b.state = .priming → w.b.kind = some .voice → w.b.endTaken = false → w.b.serve = some sp →
    w.b.scan = some sc → sc.phase = .targeting → sc.cands = [] → sc.target = some c →
    let n := max c.index ((ctx.pos - c.start) * 50 / ctx.rate)
    let x := c.bodyOff + 32 * n
    let landed (serve : ServePage) (b : Binding) (reqs : List FetchReq) : PWork := { w with
      b := { b with
        state := .playing, loaded := true, scan := none, locate := .none, skipTo := none
        clip := some { c with index := n }, serve := some serve }
      reqs := reqs, evs := w.evs ++ [.landed] }
    n < c.blocks → ctx.pos < c.stop + 6 →
    (page ≠ v.last → segOf? v.segs page.next.ord = some g → sp.base + sp.fill ≤ x → base ≤ x → x + 32 ≤ base + fill →
      takeResult w.b.gen (some (fill, data)) ctx w = landed ⟨page, base, x - base, fill, data⟩
        { w.b with
          issued := some ⟨g, page.next, w.b.gen, false⟩, fetch := .requested page.next (base + fill) false false }
        (w.reqs ++ [⟨ctx.room, ctx.ix, w.b.gen, g, page.next.pg⟩])) ∧
    (page = sp.page.next → sp.base ≤ x → x < sp.base + sp.fill → sp.base + sp.fill < x + 32 →
      x + 32 ≤ sp.base + sp.fill + fill →
      takeResult w.b.gen (some (fill, data)) ctx w = landed { sp with off := x - sp.base }
        { w.b with issued := none, fetch := .filled page base fill data } w.reqs)) ∧
  ∀ (ctx : PCtx) (w : PWork) (v : TrackView) (i : Issued) (page : TrackPage) (base fill : Nat) (retry held : Bool)
      (data : List Byte) (sp : ServePage) (c : Clip) (g : SegNo),
    ctx.track = some v → w.b.issued = some i → i.stale = false → w.b.fetch = .requested page base retry held →
    data.length = fill → w.b.state = .starved → w.b.loaded = true → w.b.kind = some .voice → w.b.endTaken = false →
    w.b.serve = some sp → w.b.clip = some c → w.b.nextClip = .none → w.b.scan = none →
    page ≠ v.last → segOf? v.segs page.next.ord = some g →
    let n := max c.index ((ctx.pos - c.start) * 50 / ctx.rate)
    let x := c.bodyOff + 32 * n
    let ends := c.bodyOff + 32 * c.blocks
    let arrived := takeResult w.b.gen (some (fill, data)) ctx w
    let readOut : Prop := w.b.locate = .none ∧ sp.fill ≤ sp.off
    let targeted : Prop := w.b.locate = .block ∧ sp.base + sp.fill ≤ x ∧ ctx.pos < c.stop + 6
    let reckoned (j y : Nat) : Prop := 0 < j ∧ page.pg + j ≤ 63 ∧ (∀ m, m < j → v.last ≠ ⟨page.ord, page.pg + m⟩) ∧
      base + fill + 2048 * (j - 1) ≤ y ∧ y < base + fill + 2048 * j
    let ahead (b : Binding) : PWork := { w with
      b := { b with
        issued := some ⟨g, page.next, w.b.gen, false⟩, fetch := .requested page.next (base + fill) false false }
      reqs := w.reqs ++ [⟨ctx.room, ctx.ix, w.b.gen, g, page.next.pg⟩] }
    let seeking (j : Nat) (b : Binding) : PWork := { w with
      b := { b with
        issued := some ⟨g, page.next, w.b.gen, decide (1 < j)⟩
        fetch := .requested ⟨page.ord, page.pg + j⟩ (base + fill + 2048 * (j - 1)) false (decide (1 < j)) }
      reqs := w.reqs ++ [⟨ctx.room, ctx.ix, w.b.gen, g, page.next.pg⟩] }
    (readOut ∨ targeted → n < c.blocks → base ≤ x → x + 32 ≤ base + fill → base + fill ≤ ends →
      arrived = ahead { w.b with
        state := .playing, clip := some { c with index := n }, skipTo := none, locate := .none
        serve := some ⟨page, base, x - base, fill, data⟩ }) ∧
    (∀ j, readOut → n < c.blocks → ctx.pos < c.stop + 6 → reckoned j x → x + 32 ≤ base + fill + 2048 * j →
      arrived = seeking j { w.b with
        clip := some { c with index := n }, locate := .block, serve := some ⟨page, base, 0, fill, data⟩ }) ∧
    (readOut → c.blocks ≤ n →
      (∀ j, reckoned j ends → arrived = seeking j { w.b with
        state := .playing, clip := none, skipTo := some ends, serve := some ⟨page, base, fill, fill, data⟩ }) ∧
      ∀ h, readHeader .voice (data.drop (ends - base)) = some h → v.kind = .voice → base ≤ ends →
        ends + 12 ≤ base + fill →
        arrived = ahead { w.b with
          state := .playing, clip := none, skipTo := none, nextClip := .header h.start h.stop h.len
          nextSerial := if w.b.nextSerial = 65535 then 1 else w.b.nextSerial + 1
          serve := some ⟨page, base, ends - base + 12, fill, data⟩ })

/-- R8, R14, R23, R32, R33, R36, R37: a page write that completes. PASS: the bytes and the tag slot are in the array,
the settled offset moves, and the last write of a pending seal makes the track SEALED and answers TRACK_SEAL. FAIL: the
segment is retired, the track goes back to the checkpoint of the segment, WRITE_FAIL is raised and a pending seal is
refused REWIND. A DELETING track releases its segments, its segment list being empty from then on (log 27). After
SOFT_RESET the outcome is discarded. A notice of the event comes before the refusal (log 19). -/
def Obligations.PageWritesSettleOrRewind : Prop :=
  ∀ (k : BankNo) (flaw : Option WriteFlaw) (lb : LoadBuf) (s : State), s.powered = true → s.arraysSound →
    (s.banks[k]).op = some (.pageWrite lb) → lb.inPage →
    let a := s.arrays[k]
    let cmd := Instr.pageWriteComplete k flaw
    let check := crc (a.bytes lb.seg lb.page lb.fillBefore ++ lb.data)
    let tag : TagSlot := ⟨lb.slot + 1, lb.fillAfter, check, lb.segTag,
      crc (tagFieldBytes (lb.slot + 1) lb.fillAfter check lb.segTag)⟩
    let confirmed : Bool := (a.write lb.seg lb.page lb.slot lb.fillBefore tag lb.data flaw).2
    let othersKept (t : State) : Prop :=
      (∀ (g : SegNo) (pg off : Nat), pg < 64 → off < 2048 →
        ¬(g = lb.seg ∧ pg = lb.page ∧ lb.fillBefore ≤ off ∧ off < lb.fillBefore + lb.data.length) →
        (t.arrays[k]).cell g pg off = a.cell g pg off) ∧
      (∀ (g : SegNo) (pg n : Nat), pg < 64 → n < 4 → ¬(g = lb.seg ∧ pg = lb.page ∧ n = lb.slot) →
        (t.arrays[k]).slot g pg n = a.slot g pg n) ∧
      sameOtherBank s t k ∧ t.rooms = s.rooms ∧ t.lines = s.lines ∧ t.roster = s.roster ∧ sameReceiver s t ∧
      sameOutside s t
    ((s.banks[k]).halted = true →
      ∃ t, exec cmd s = .next t ∧ othersKept t ∧ t.tracks = s.tracks ∧ t.evu = s.evu ∧
        t.banks[k] = { s.banks[k] with op := none }) ∧
    ((s.banks[k]).halted = false → flaw = none → a.slot lb.seg lb.page lb.slot = none →
      (∀ n, n < lb.data.length → a.cell lb.seg lb.page (lb.fillBefore + n) = none) →
      ∀ tr, s.track? lb.trackId = some tr → tr.state = .loading →
      ∃ t tr', exec cmd s = .next t ∧ othersKept t ∧
        (t.arrays[k]).slot lb.seg lb.page lb.slot = some tag ∧
        (∀ n, n < lb.data.length → (t.arrays[k]).cell lb.seg lb.page (lb.fillBefore + n) = lb.data[n]?) ∧
        t.track? lb.trackId = some tr' ∧ t.evu = s.evu ∧ tr'.inFlight = tr.inFlight - 1 ∧
        tr'.settled = some (lb.landing + lb.data.length) ∧ tr'.writePos = tr.writePos ∧ tr'.segs = tr.segs ∧
        (¬(tr.sealPending = true ∧ tr.inFlight ≤ 1) →
          t.link = s.link ∧ tr'.state = .loading ∧ tr'.running = tr.running ∧ tr'.sealPending = tr.sealPending) ∧
        (∀ p page place, tr.sealPending = true → tr.inFlight ≤ 1 → tr.running = some p → tr.sealPage = some page →
          s.openPlace? 0x32 lb.trackId = some place →
          tr'.state = .sealed ∧ tr'.summary = some ⟨p.count, p.lastEnd, p.longest, page⟩ ∧ tr'.sealPending = false ∧
            tr'.running = none ∧
            t.link = s.link.answer place true (u32 (tr.writePos.getD 0) ++ u16 p.count ++ u24 p.lastEnd ++
              u24 p.longest ++ u8 page.ord ++ u8 page.pg))) ∧
    ((s.banks[k]).halted = false → confirmed = false →
      ∀ (tr : Track) (before later : List SegElem) (e : SegElem) (cp : ParserState),
        s.track? lb.trackId = some tr → tr.state = .loading → tr.segs = before ++ e :: later → e.seg = lb.seg →
        e.ord = before.length → (∀ x ∈ before, x.ord < e.ord ∧ x.seg ≠ e.seg) → (∀ x ∈ later, e.ord < x.ord) →
        (∀ x ∈ later, ((s.banks[k]).segs[x.seg]).refs = 0) →
        (if later = [] then tr.checkpoint else tr.priorCheckpoint) = some cp →
      ∃ t tr', exec cmd s = .next t ∧ othersKept t ∧ t.track? lb.trackId = some tr' ∧ tr'.state = .loading ∧
        tr'.segs = before ∧ tr'.running = some cp ∧ tr'.writePos = some cp.offset ∧ tr'.settled = some cp.offset ∧
        tr'.rewind = some cp.offset ∧ tr'.inFlight = 0 ∧ tr'.sealPending = false ∧
        (t.banks[k]).retired = (s.banks[k]).retired ++ [lb.seg] ∧
        (t.banks[k]).clearQ = (s.banks[k]).clearQ ++ later.map (·.seg) ∧
        (∀ lb', (s.banks[k]).loadBuf = some lb' → lb'.trackId = lb.trackId → (t.banks[k]).loadBuf = none) ∧
        RaisedOnce s t (.device .writeFail) ∧ sameOtherEvents s t (.device .writeFail) ∧
        (tr.sealPending = false → NoticesOnly s t) ∧
        (∀ place, tr.sealPending = true → s.openPlace? 0x32 lb.trackId = some place →
          ∃ notices : List OutMsg, (∀ m ∈ notices, m.isNotice = true) ∧
            t.link = ({ s.link with outbound := s.link.outbound ++ notices } : Link).answer place false
              (refusedBody .rewind cp.offset))) ∧
    ((s.banks[k]).halted = false → confirmed = true →
      ∀ tr, s.track? lb.trackId = some tr → tr.state = .deleting → tr.bank = k → tr.segs ≠ [] →
        (∀ x ∈ tr.segs, ((s.banks[k]).segs[x.seg]).refs = 0) →
      ∃ t tr', exec cmd s = .next t ∧ t.track? lb.trackId = some tr' ∧ tr'.segs = [] ∧ tr'.inFlight = 0 ∧
        tr'.clearing = (tr.segs.map (·.seg)).reverse ∧
        (t.banks[k]).clearQ = (s.banks[k]).clearQ ++ (tr.segs.map (·.seg)).reverse ∧ t.link = s.link ∧ t.evu = s.evu)

/-- R9, R18, R21, R23, R38, R42: a segment clear that completes, no move waiting for a target: the segment is unwritten
and joins the tail of the free list, or is retired where the clear left something written; the track whose delete
released it counts it off and is removed with the last, TRACK_DELETE being answered. A move that waits takes the segment
at once; where the clear fails it waits on, or, when the free list and the clear queue are left empty, aborts with
NO_SPACE; one that has its target is left alone. SEGMENTS_LOW is raised where the free-plus-clear count goes from 32 to
31. In a bank that SOFT_RESET has stopped the outcome is discarded. -/
def Obligations.ClearsFreeOrRetireASegment : Prop :=
  ∀ (k : BankNo) (flaw : ClearFlaw) (g : SegNo) (rest : List SegNo) (s : State), s.powered = true →
    (Instr.clearComplete k flaw).wellFormed = true → (s.banks[k]).op = some (.clear g) →
    (s.banks[k]).clearQ = g :: rest →
    let cmd := Instr.clearComplete k flaw
    let pass : Prop := flaw.cells = [] ∧ flaw.slots = []
    let cleared (t : State) : Prop :=
      (pass → ∀ pg, pg < 64 → (∀ off, off < 2048 → (t.arrays[k]).cell g pg off = none) ∧
        ∀ n, n < 4 → (t.arrays[k]).slot g pg n = none) ∧
      (∀ (h : SegNo) (pg : Nat), h ≠ g → pg < 64 →
        (∀ off, off < 2048 → (t.arrays[k]).cell h pg off = (s.arrays[k]).cell h pg off) ∧
        ∀ n, n < 4 → (t.arrays[k]).slot h pg n = (s.arrays[k]).slot h pg n) ∧
      sameOtherBank s t k ∧ t.rooms = s.rooms ∧ t.lines = s.lines ∧ t.roster = s.roster ∧ sameReceiver s t ∧
      sameOutside s t
    let pooled (t : State) : Prop :=
      (t.banks[k]).clearQ = rest ∧
      (pass → (t.banks[k]).free = (s.banks[k]).free ++ [g] ∧ (t.banks[k]).retired = (s.banks[k]).retired ∧
        ((t.banks[k]).segs[g]).pool = .free) ∧
      (¬pass → (t.banks[k]).free = (s.banks[k]).free ∧ (t.banks[k]).retired = (s.banks[k]).retired ++ [g] ∧
        ((t.banks[k]).segs[g]).pool = .retired)
    let noWait : Prop := s.movingTrack? k = none ∨ ∃ tr m, s.movingTrack? k = some tr ∧ tr.move = some m ∧
      ∃ x ∈ m.targets, x.ord = m.next.ord
    ((s.banks[k]).halted = true → ∃ t, exec cmd s = .next t ∧ cleared t ∧ t.tracks = s.tracks ∧ t.evu = s.evu ∧
      t.banks[k] = { s.banks[k] with op := none }) ∧
    ((s.banks[k]).halted = false → noWait → (∀ tr ∈ s.tracks, tr.bank = k → g ∉ tr.clearing) →
      ∃ t, exec cmd s = .next t ∧ cleared t ∧ pooled t ∧ t.tracks = s.tracks ∧ NoticesOnly s t ∧ JudgesLow s t k ∧
        (pass → t.link = s.link ∧ t.evu = s.evu)) ∧
    (∀ tr, (s.banks[k]).halted = false → noWait → s.track? tr.id = some tr → tr.bank = k → g ∈ tr.clearing →
      (∀ x ∈ s.tracks, x.bank = k → g ∈ x.clearing → x = tr) →
      ((∃ x ∈ tr.clearing, x ≠ g) → ∃ t, exec cmd s = .next t ∧ cleared t ∧ pooled t ∧ JudgesLow s t k ∧
        t.track? tr.id = some { tr with clearing := tr.clearing.filter (fun x => !decide (x = g)) }) ∧
      (∀ place, (∀ x ∈ tr.clearing, x = g) → s.openPlace? 0x34 tr.id = some place →
        ∃ t, exec cmd s = .next t ∧ cleared t ∧ pooled t ∧ JudgesLow s t k ∧
          t.tracks = s.tracks.filter (fun x => !decide (x.id = tr.id)) ∧
          (pass → t.link = s.link.answer place true [] ∧ t.evu = s.evu))) ∧
    (∀ tr m, (s.banks[k]).halted = false → s.movingTrack? k = some tr → tr.bank = k → s.track? tr.id = some tr →
      tr.move = some m → (∀ x ∈ m.targets, x.ord ≠ m.next.ord) → (s.banks[k]).free = [] →
      (∀ x ∈ s.tracks, x.bank = k → g ∉ x.clearing) →
      (pass → ∃ t, exec cmd s = .next t ∧ cleared t ∧ (t.banks[k]).free = [] ∧ (t.banks[k]).clearQ = rest ∧
        ((t.banks[k]).segs[g]).pool = .moveTarget ∧ NoticesOnly s t ∧ JudgesLow s t k ∧
        t.track? tr.id = some { tr with move := some { m with targets := m.targets ++ [⟨m.next.ord, g, 0⟩] } }) ∧
      (¬pass → rest ≠ [] → ∃ t, exec cmd s = .next t ∧ cleared t ∧ pooled t ∧ t.tracks = s.tracks ∧ NoticesOnly s t ∧
        JudgesLow s t k) ∧
      (∀ place, ¬pass → rest = [] → s.openPlace? 0x33 tr.id = some place →
        ∃ t, exec cmd s = .next t ∧ cleared t ∧ t.track? tr.id = some { tr with state := .sealed, move := none } ∧
          (t.banks[k]).free = [] ∧ (t.banks[k]).retired = (s.banks[k]).retired ++ [g] ∧
          ((∀ x ∈ m.targets, ((s.banks[k]).segs[x.seg]).refs = 0) → (t.banks[k]).clearQ = m.targets.map (·.seg)) ∧
          t.link = s.link.answer place false (refusedBody .noSpace 0) ∧ t.evu = s.evu))

/-- R11, R18, R41 to R43: a move step that completes. DONE: the patched page stands in the target under a first tag
slot, and the move goes on to the next page; after page 63 it goes on to page 0 of the next ordinal with a new target
from the free list, SEGMENTS_LOW being judged (R21), waits for one, or aborts with NO_SPACE where the free list and the
clear queue are both empty. After the track's last page it ends in the switch-over: the targets are the track's
segments, its generation is one more, the old segments are released and TRACK_MOVE is answered. A source that fails its
check, content the parse refuses and a target that does not take the page abort the move: the targets are released, the
track is SEALED as it was and TRACK_MOVE is refused; the array is as it was where nothing was written. -/
def Obligations.MoveStepsCopyOrAbort : Prop :=
  ∀ (k : BankNo) (seen : Option PageView) (flaw : Option WriteFlaw) (src tgt : SegNo) (tr : Track) (m : MoveProgress)
    (place : Nat) (s : State), s.powered = true → s.arraysSound →
    (s.banks[k]).op = some (.moveStep tr.id src tgt m.next) → (s.banks[k]).halted = false →
    s.track? tr.id = some tr → tr.bank = k → tr.state = .moving → tr.move = some m → m.next.pg < 64 →
    s.openPlace? 0x33 tr.id = some place →
    let a := s.arrays[k]
    let cmd := Instr.moveStepComplete k seen flaw
    let read := judgePage (seen.getD (a.view src m.next.pg))
    let aborts (written : Bool) (released : List SegNo) (reason : Reason) (detail : Nat) : Prop :=
      ∃ t, exec cmd s = .next t ∧ (written = false → t.arrays = s.arrays) ∧ t.track? tr.id = some { tr with state := .sealed, move := none } ∧
        ((∀ g ∈ released, ((s.banks[k]).segs[g]).refs = 0) →
          (t.banks[k]).clearQ = (s.banks[k]).clearQ ++ released) ∧
        t.link = s.link.answer place false (refusedBody reason detail) ∧ t.evu = s.evu ∧ sameOtherBank s t k ∧
        t.rooms = s.rooms ∧ t.lines = s.lines ∧ t.roster = s.roster ∧ sameOutside s t
    let wrote (t : State) (data : List Byte) (segTag : Option SegTag) : Prop :=
      (t.arrays[k]).slot tgt m.next.pg 0 = some ⟨1, data.length, crc data, segTag,
        crc (tagFieldBytes 1 data.length (crc data) segTag)⟩ ∧
      (∀ n, n < data.length → (t.arrays[k]).cell tgt m.next.pg n = data[n]?) ∧
      (∀ (g : SegNo) (pg : Nat), (g, pg) ≠ (tgt, m.next.pg) → pg < 64 →
        (∀ off, off < 2048 → (t.arrays[k]).cell g pg off = a.cell g pg off) ∧
        ∀ n, n < 4 → (t.arrays[k]).slot g pg n = a.slot g pg n) ∧
      sameOtherBank s t k ∧ t.rooms = s.rooms ∧ t.lines = s.lines ∧ t.roster = s.roster ∧ sameReceiver s t ∧
      sameOutside s t
    let segTag (data : List Byte) : Option SegTag :=
      if m.next.pg = 0 then
        some ⟨tr.id, tr.kind.code, tr.lang, tr.gen + 1, m.next.ord, entryFrame tr.kind m.parser data⟩
      else none
    let targets (data : List Byte) : List SegElem :=
      if m.next.pg = 0 then
        m.targets.map (fun e => if e.ord = m.next.ord then { e with entry := entryFrame tr.kind m.parser data } else e)
      else m.targets
    let atEnd : Prop := tr.summary.map (·.endPage) = some m.next
    let fresh : Prop := a.slot tgt m.next.pg 0 = none ∧ ∀ n, n < 2048 → a.cell tgt m.next.pg n = none
    (read = none → aborts false (m.targets.map (·.seg)) .moveFailed (m.next.ord * 256 + m.next.pg)) ∧
    (∀ fill raw, read = some (fill, raw) → raw.length ≤ 2048 →
      let data := m.patches.foldl (overlay m.parser.offset) raw
      (∀ reason offset, ¬atEnd → parse tr.kind m.parser data = .bad reason offset →
        aborts false (m.targets.map (·.seg)) reason offset) ∧
      (∀ p pad, ¬atEnd → parse tr.kind m.parser data = .ok p pad → m.next.pg < 63 → flaw = none → fresh →
        ∃ t, exec cmd s = .next t ∧ wrote t data (segTag data) ∧ t.link = s.link ∧ t.evu = s.evu ∧
          t.track? tr.id = some { tr with move := some { m with
            next := ⟨m.next.ord, m.next.pg + 1⟩, moved := m.moved + 1, parser := p, targets := targets data } }) ∧
      (∀ p pad, ¬atEnd → parse tr.kind m.parser data = .ok p pad → m.next.pg = 63 → flaw = none → fresh →
        let m' : MoveProgress := { m with next := ⟨m.next.ord + 1, 0⟩, moved := m.moved + 1, parser := p }
        (∀ g rest, (s.banks[k]).free = g :: rest →
          ∃ t, exec cmd s = .next t ∧ wrote t data none ∧ NoticesOnly s t ∧ JudgesLow s t k ∧
            (t.banks[k]).free = rest ∧ ((t.banks[k]).segs[g]).pool = .moveTarget ∧
            ((t.banks[k]).segs[g]).cursor = some ⟨1, 0, 0⟩ ∧
            t.track? tr.id = some { tr with
              move := some { m' with targets := m.targets ++ [⟨m.next.ord + 1, g, 0⟩] } }) ∧
        ((s.banks[k]).free = [] → (s.banks[k]).clearQ ≠ [] →
          ∃ t, exec cmd s = .next t ∧ wrote t data none ∧ t.link = s.link ∧ t.evu = s.evu ∧ (t.banks[k]).free = [] ∧
            (t.banks[k]).clearQ = (s.banks[k]).clearQ ∧ t.track? tr.id = some { tr with move := some m' }) ∧
        ((s.banks[k]).free = [] → (s.banks[k]).clearQ = [] →
          aborts true (m.targets.map (·.seg)) .noSpace 0 ∧ ∃ t, exec cmd s = .next t ∧ wrote t data none)) ∧
      (∀ f p pad, ¬atEnd → parse tr.kind m.parser data = .ok p pad → flaw = some f → f.slot = none →
        aborts true ((m.targets.filter (fun e => !decide (e.seg = tgt))).map (·.seg)) .moveFailed
          (m.next.ord * 256 + m.next.pg)) ∧
      (∀ body p sm, atEnd → tr.summary = some sm → m.patches = [] →
        raw = body ++ raw.drop (raw.length - 12) → raw.length = body.length + 12 → raw.length = fill →
        (raw.drop (raw.length - 12)).head? = some 0x0F#8 → parse tr.kind m.parser body = .ok p false →
        p.openBytes = 0 → flaw = none → fresh → (∀ x ∈ tr.segs, ((s.banks[k]).segs[x.seg]).refs = 0) →
        let written := body ++ [0x0F#8] ++ u16 p.count ++ u32 p.lastEnd ++ u32 p.longest ++ u8 (tr.gen + 1)
        let sm' : Summary := ⟨p.count, p.lastEnd, p.longest, sm.endPage⟩
        ∃ t, exec cmd s = .next t ∧ wrote t written (segTag written) ∧
          t.track? tr.id = some { tr with
            state := .sealed, move := none, gen := tr.gen + 1, segs := targets written, summary := some sm' } ∧
          (t.banks[k]).clearQ = (s.banks[k]).clearQ ++ tr.segs.map (·.seg) ∧
          (∀ x ∈ m.targets, (∀ y ∈ tr.segs, y.seg ≠ x.seg) → ((t.banks[k]).segs[x.seg]).pool = .owned) ∧
          t.link = s.link.answer place true (u8 (tr.gen + 1) ++ u16 p.count ++ u24 p.lastEnd ++ u24 p.longest ++
            u8 sm.endPage.ord ++ u8 sm.endPage.pg) ∧ t.evu = s.evu))

/-- R10, R47 to R51: a mount read that completes. Each page 0 tag classifies its segment and the next is read; the page
reads of a contest go page by page and leave the best contender; the members of a group agree in kind and language with
its head, R48's lowest-numbered member being read as that of lowest segment number (the model's choice, log 23); the
tag reads of a group halve what lies between a written page and one that is not, and its last page seals it or not, a
last end frame or longest span above 16,777,215 being taken as it stands (the model's choice, log 37); of the groups of
an ID the best is kept; and when both banks have finished they are merged, bank 0's entry of an ID before bank 1's and
at most 128: the directory, the free lists, the clear queues in ascending segment number and the segments' pools, with
MOUNT_DONE, and SEGMENTS_LOW for each bank whose free-plus-clear count is then below 32 (R21). -/
def Obligations.MountReadsBuildTheDirectory : Prop :=
  ((∀ c h, groupHead c = some h → h ∈ c ∧
      (h.tag.ordinal = 0 ∨ ((∀ x ∈ c, x.tag.ordinal ≠ 0) ∧ ∀ x ∈ c, h.seg ≤ x.seg))) ∧
   (∀ c, c ≠ [] → ∃ h g out, groupHead c = some h ∧ groupOf c = some (g, out) ∧
      g.trackId = h.tag.trackId ∧ g.gen = h.tag.gen ∧ g.lang = h.tag.lang ∧
      (∀ x, x ∈ g.members ↔ x ∈ c ∧ x.tag.kind = h.tag.kind ∧ x.tag.lang = h.tag.lang) ∧
      g.members.Pairwise (fun x y => x.tag.ordinal ≤ y.tag.ordinal) ∧
      ∀ n, n ∈ out ↔ ∃ x ∈ c, ¬(x.tag.kind = h.tag.kind ∧ x.tag.lang = h.tag.lang) ∧ x.seg = n) ∧
   (∀ (g : Group) (page : Nat), (g.judge page none).summary = none ∧
      ∀ fill data, (fill < 12 → (g.judge page (some (fill, data))).summary = none) ∧
        ∀ (body : List Byte) (count lastEnd longest gen : Nat) (top : Member), count < 65536 → lastEnd < 2 ^ 32 →
          longest < 2 ^ 32 → gen < 256 → g.members.getLast? = some top → fill = data.length →
          data = body ++ [0x0F#8] ++ u16 count ++ u32 lastEnd ++ u32 longest ++ u8 gen →
          let complete : Prop := ∀ o, o ≤ top.tag.ordinal → ∃ x ∈ g.members, x.tag.ordinal = o
          (gen = g.gen → complete → (g.judge page (some (fill, data))).summary =
            some ⟨count, lastEnd, longest, ⟨top.tag.ordinal, page⟩⟩) ∧
          ((gen ≠ g.gen ∨ ¬complete) → (g.judge page (some (fill, data))).summary = none))) ∧
  ∀ (k : BankNo) (m : MountProgress) (s : State), s.powered = true → (s.banks[k]).halted = false →
    (s.banks[k]).mount = some m →
    let goesOn (t : State) (m' : MountProgress) (op : Op) : Prop :=
      t.banks[k] = { s.banks[k] with op := some op, mount := some m' } ∧ t.tracks = s.tracks ∧
        t.arrays = s.arrays ∧ t.rooms = s.rooms ∧ t.lines = s.lines ∧ t.roster = s.roster ∧ t.link = s.link ∧
        t.evu = s.evu ∧ sameOutside s t
    (∀ (g h : SegNo) (seen : Option (Option TagSlot)), m.phase = .scan g → h.val = g.val + 1 →
      (s.banks[k]).op = some (.tagRead g 0 0) →
      let slot := seen.getD ((s.arrays[k]).slot g 0 0)
      let valid (x : TagSlot) (y : SegTag) : Prop := slotIntact 0 x = true ∧ x.segTag = some y ∧ y.trackId ≠ 0 ∧
        (y.kind = 1 ∨ y.kind = 2) ∧ ∀ l ∈ [y.lang.a, y.lang.b, y.lang.c], 0x41 ≤ l.toNat ∧ l.toNat ≤ 0x5A
      (slot = none → ∃ t, exec (.tagReadComplete k seen) s = .next t ∧
        goesOn t { m with phase := .scan h, toFree := m.toFree ++ [g] } (.tagRead h 0 0)) ∧
      (∀ x, slot = some x → (∀ y, ¬valid x y) → ∃ t, exec (.tagReadComplete k seen) s = .next t ∧
        goesOn t { m with phase := .scan h, toClear := m.toClear ++ [g] } (.tagRead h 0 0)) ∧
      (∀ x y, slot = some x → valid x y → ∃ t, exec (.tagReadComplete k seen) s = .next t ∧
        goesOn t { m with phase := .scan h, members := m.members ++ [⟨g, y⟩] } (.tagRead h 0 0))) ∧
    (∀ (grp : Group) (top : Member) (lo hi : Nat) (rest : List Group) (js : List Judged) (seen : Option (Option TagSlot)),
      m.phase = .judge grp lo hi rest js → grp.members.getLast? = some top → lo + 1 < hi →
      (s.banks[k]).op = some (.tagRead top.seg ((lo + hi) / 2) 0) →
      let mid := (lo + hi) / 2
      let nextRead (lo hi : Nat) : Op :=
        if hi ≤ lo + 1 then .pageRead top.seg lo else .tagRead top.seg ((lo + hi) / 2) 0
      (seen.getD ((s.arrays[k]).slot top.seg mid 0) ≠ none → ∃ t, exec (.tagReadComplete k seen) s = .next t ∧
        goesOn t { m with phase := .judge grp mid hi rest js } (nextRead mid hi)) ∧
      (seen.getD ((s.arrays[k]).slot top.seg mid 0) = none → ∃ t, exec (.tagReadComplete k seen) s = .next t ∧
        goesOn t { m with phase := .judge grp lo mid rest js } (nextRead lo mid))) ∧
    (∀ (c d : Member) (cs : List Member) (page pages : Nat) (done : List Contender) (rest : List (List Member))
      (seen : Option PageView), m.phase = .contest (c :: d :: cs) page pages done rest → page < 63 →
      (s.banks[k]).op = some (.pageRead c.seg page) →
      let read := judgePage (seen.getD ((s.arrays[k]).view c.seg page))
      (∀ fill data, read = some (fill, data) → 0 < fill → ∃ t, exec (.mountPageReadComplete k seen) s = .next t ∧
        goesOn t { m with phase := .contest (c :: d :: cs) (page + 1) (pages + 1) done rest }
          (.pageRead c.seg (page + 1))) ∧
      (∀ data, read = some (0, data) → ∃ t, exec (.mountPageReadComplete k seen) s = .next t ∧
        goesOn t { m with phase := .contest (d :: cs) 0 0 (done ++ [⟨c, true, pages⟩]) rest } (.pageRead d.seg 0)) ∧
      (read = none → ∃ t, exec (.mountPageReadComplete k seen) s = .next t ∧
        goesOn t { m with phase := .contest (d :: cs) 0 0 (done ++ [⟨c, false, pages⟩]) rest } (.pageRead d.seg 0))) ∧
    (∀ (c d0 : Member) (ds : List Member) (page pages : Nat) (done : List Contender) (rest : List (List Member))
      (seen : Option PageView) (data : List Byte), m.phase = .contest [c] page pages done ((d0 :: ds) :: rest) →
      (s.banks[k]).op = some (.pageRead c.seg page) →
      judgePage (seen.getD ((s.arrays[k]).view c.seg page)) = some (0, data) →
      let all := done ++ [⟨c, true, pages⟩]
      let better (x y : Contender) : Prop := (x.sound = true ∧ y.sound = false) ∨
        (x.sound = y.sound ∧ (y.pages < x.pages ∨ (x.pages = y.pages ∧ y.member.seg < x.member.seg)))
      ∃ t kept, exec (.mountPageReadComplete k seen) s = .next t ∧ kept ∈ all ∧ (∀ y ∈ all, ¬better y kept) ∧
        let lost := (all.filter (fun y => !decide (y.member.seg = kept.member.seg))).map (·.member.seg)
        goesOn t { m with
          phase := .contest (d0 :: ds) 0 0 [] rest, toClear := m.toClear ++ lost
          members := m.members.filter (fun z => !decide (z.seg ∈ lost)) } (.pageRead d0.seg 0)) ∧
    (∀ (j : BankNo) (m' : MountProgress) (kept' : List Judged) (grp : Group) (top : Member) (lo hi : Nat)
      (js : List Judged) (seen : Option PageView), j ≠ k → (s.banks[j]).mount = some m' → m'.phase = .finished kept' →
      m.phase = .judge grp lo hi [] js → (s.banks[k]).op = some (.pageRead top.seg lo) → m.distinct → m'.distinct →
      let all := js ++ [grp.judge lo (judgePage (seen.getD ((s.arrays[k]).view top.seg lo)))]
      let beaten (x : Judged) : Prop := ∃ y ∈ all, y.group.trackId = x.group.trackId ∧
        ((y.summary ≠ none ∧ x.summary = none) ∨
          ((y.summary = none ↔ x.summary = none) ∧ x.group.gen < y.group.gen))
      let kept (b : BankNo) (x : Judged) : Prop := if b = k then x ∈ all ∧ ¬beaten x else x ∈ kept'
      let stays (b : BankNo) (x : Judged) : Prop := kept b x ∧
        (b = 1 → ∀ y, kept 0 y → y.group.trackId ≠ x.group.trackId)
      let entry (b : BankNo) (x : Judged) (tr : Track) : Prop :=
        tr.id = x.group.trackId ∧ tr.kind = x.group.kind ∧ tr.lang = x.group.lang ∧ tr.bank = b ∧
          tr.gen = x.group.gen ∧ tr.segs = x.group.members.map (fun z => ⟨z.tag.ordinal, z.seg, z.tag.entry⟩) ∧
          tr.summary = x.summary ∧ tr.state = (if x.summary.isSome then .sealed else .incomplete) ∧
          tr.bindCount = 0 ∧ tr.writePos = none ∧ tr.settled = none ∧ tr.rewind = none ∧ tr.checkpoint = none ∧
          tr.inFlight = 0 ∧ tr.sealPending = false ∧ tr.move = none
      let cleared (b : BankNo) (g : SegNo) : Prop :=
        if b = k then g ∈ m.toClear ∨ ∃ x ∈ all, beaten x ∧ g ∈ x.group.members.map (·.seg) else g ∈ m'.toClear
      ∃ t, exec (.mountPageReadComplete k seen) s = .next t ∧ t.mounting = false ∧
        RaisedOnce s t (.device .mountDone) ∧ NoticesOnly s t ∧
        (let segmentsLow : EventId := .device .segmentsLow
         let low (b : BankNo) : Prop := (t.banks[b]).free.length + (t.banks[b]).clearQ.length < 32
         (¬low k → ¬low j → t.evu.latch segmentsLow = s.evu.latch segmentsLow) ∧
           ((low k ∧ ¬low j) ∨ (low j ∧ ¬low k) → RaisedOnce s t segmentsLow) ∧
           (low k → low j → RaisedTwice s t segmentsLow) ∧
           (∀ o : EventId, o ≠ segmentsLow → o ≠ .device .mountDone → t.evu.latch o = s.evu.latch o) ∧
           t.evu.switch = s.evu.switch ∧ t.evu.mask = s.evu.mask) ∧
        (∀ tr ∈ t.tracks, ∃ b x, stays b x ∧ entry b x tr) ∧
        (∀ b x, stays b x → (∃ tr ∈ t.tracks, entry b x tr) ∨
          (t.tracks.length = 128 ∧ ∀ tr ∈ t.tracks, tr.id < x.group.trackId)) ∧
        t.tracks.length ≤ 128 ∧ t.tracks.Pairwise (fun x y => x.id < y.id) ∧
        (t.banks[k]).free = m.toFree ∧ (t.banks[j]).free = m'.toFree ∧
        (∀ b : BankNo,
          let owned (g : SegNo) : Prop := ∃ tr ∈ t.tracks, tr.bank = b ∧ g ∈ tr.segs.map (·.seg)
          (t.banks[b]).clearQ.Pairwise (fun x y => x ≤ y) ∧
          ∀ g : SegNo,
            (g ∈ (t.banks[b]).clearQ ↔ cleared b g ∨
              ((∃ x, kept b x ∧ g ∈ x.group.members.map (·.seg)) ∧ ¬owned g)) ∧
            (owned g → (t.banks[b]).segs[g] = ⟨.owned, 0, none⟩) ∧
            (¬owned g → g ∈ (t.banks[b]).free → (t.banks[b]).segs[g] = ⟨.free, 0, none⟩) ∧
            (¬owned g → g ∉ (t.banks[b]).free → (t.banks[b]).segs[g] = ⟨.clearQueue, 0, none⟩)) ∧
        t.arrays = s.arrays ∧ t.rooms = s.rooms ∧ t.lines = s.lines ∧ t.roster = s.roster ∧ sameReceiver s t ∧
        sameOutside s t)
end

