-- ==== Sys2Proof/Laws/Captions.lean ====
section
/-! SUPPORT. What leaving a caption window does (R95, R101, R107): each cue that leaves makes the window one shorter,
whatever its CLEAR does to the feed, and when all have left the test names none of those that stay. What a binding whose
pages in hand are read out does not do (R84, R93, R96), and the first places of a feed queue (R98, R99). -/

namespace Sys2Proof.Machine

open Sys2Proof

theorem removeFirst_length {α : Type} (p : α → Bool) (l : List α) (h : ∃ x ∈ l, p x = true) :
    (removeFirst p l).length + 1 = l.length := by
  induction l with
  | nil => simp at h
  | cons x xs ih =>
    unfold removeFirst
    by_cases hx : p x = true
    · simp [hx]
    · have rest : ∃ y ∈ xs, p y = true := by
        obtain ⟨y, hy, py⟩ := h
        rcases List.mem_cons.mp hy with rfl | hy
        · exact absurd py hx
        · exact ⟨y, hy, py⟩
      simp [hx, ih rest]

/-- R92, R119: a header consumed steps the serial, moves the read offset, and changes nothing else. -/
theorem numberHeader_eq (w : PWork) :
    numberHeader w = { w with b := { w.b with
      serve := w.b.serve.map (fun sp => { sp with off := sp.off + headerBytes })
      nextSerial := serialAfter w.b.nextSerial } } := rfl

theorem queueClear_window_length (serial : Nat) (notify : Bool) (w : PWork) :
    (queueClear serial notify w).b.window.length = w.b.window.length := by
  unfold queueClear
  split
  · rfl
  · split
    · simp [PWork.mod, ageless]
    · split <;> simp [dropOldestShow, collapseFeed, PWork.mod, PWork.raise, ageless]

theorem leaveWindow_window_length (c : WinCue) (notify : Bool) (w : PWork) (h : c ∈ w.b.window) :
    (leaveWindow c notify w).b.window.length + 1 = w.b.window.length := by
  unfold leaveWindow
  rw [queueClear_window_length]
  exact removeFirst_length _ _ ⟨c, h, by simp⟩

theorem leaveEach_leaves (test : WinCue → Option Bool) (n : Nat) (w : PWork) (h : w.b.window.length ≤ n) :
    ∀ c ∈ (leaveEach test n w).b.window, test c = none := by
  induction n generalizing w with
  | zero =>
    intro c hc
    rw [leaveEach, List.eq_nil_of_length_eq_zero (Nat.le_zero.mp h)] at hc
    simp at hc
  | succ n ih =>
    unfold leaveEach
    split
    · rename_i none_
      intro c hc
      have := List.findSome?_eq_none_iff.mp none_ c hc
      simpa using this
    · rename_i c notify some_
      obtain ⟨x, hx, eq⟩ := List.exists_of_findSome?_eq_some some_
      have same : x = c := by
        cases t : test x <;> simp [t] at eq
        exact eq.1
      subst same
      exact ih _ (by have := leaveWindow_window_length x notify w hx; omega)

/-- When all have left, the test names no cue that stays. -/
theorem leaveAll_leaves (test : WinCue → Option Bool) (w : PWork) :
    ∀ c ∈ (leaveAll test w).b.window, test c = none :=
  leaveEach_leaves test _ w (Nat.le_refl _)

/-- R95: no cue whose end frame is reached stays. -/
theorem removal_leaves (ctx : PCtx) (w : PWork) : ∀ c ∈ (removal ctx w).b.window, c.over ctx.pos = false := by
  intro c hc
  have := leaveAll_leaves _ w c hc
  by_cases h : c.over ctx.pos = true
  · simp [h] at this
  · simpa using h

/-- R107: no live cue whose hold is spent stays. -/
theorem liveCountdown_leaves (w : PWork) : ∀ c ∈ (liveCountdown w).b.window, c.expired? = none :=
  leaveAll_leaves _ _

/-! ### Nothing to read -/

/-- The fetch buffer is not FILLED. -/
theorem pageInHand_false (b : Binding) (h : ∀ page base fill data, b.fetch ≠ .filled page base fill data) :
    b.pageInHand = false := by
  unfold Binding.pageInHand
  split
  · rename_i p a f d e; exact absurd e (h p a f d)
  · rfl

/-- No page moves while the fetch buffer is not FILLED (R84). -/
theorem advance_unfilled (ctx : PCtx) (w : PWork)
    (h : ∀ page base fill data, w.b.fetch ≠ .filled page base fill data) : advance ctx w = w := by
  unfold advance
  split
  · rename_i p a f d e; exact absurd e (h p a f d)
  · rfl

/-- A refill takes nothing while the pages in hand are read out (R93). -/
theorem refill_readOut (ctx : PCtx) (w : PWork) (sp : ServePage)
    (h : ∀ page base fill data, w.b.fetch ≠ .filled page base fill data) (hs : w.b.serve = some sp)
    (hf : sp.fill ≤ sp.off) : refill ctx w = w := by
  have stays : refillN (w.b.bytesInHand + 3 + 1) ctx w = w := by
    unfold refillN
    simp [hs, hf, pageInHand_false _ h]
  unfold refill
  rw [show w.b.bytesInHand + 4 = w.b.bytesInHand + 3 + 1 from rfl, stays, advance_unfilled ctx w h]

/-- Where no staged cue is due and the pages in hand are read out, the entry step does nothing (R96). -/
theorem entryN_readOut (ctx : PCtx) (w : PWork) (n : Nat) (sp : ServePage)
    (h : ∀ page base fill data, w.b.fetch ≠ .filled page base fill data) (hs : w.b.serve = some sp)
    (hf : sp.fill ≤ sp.off) (hd : ∀ d ∈ w.b.staging, ctx.pos < d.start) : entryN (n + 1) ctx w = w := by
  have none_due : headDue ctx w = none := by
    unfold headDue
    split
    · rfl
    · rename_i c r e
      have := hd c (by simp [e])
      simp; omega
  unfold entryN
  simp [none_due, refill_readOut ctx w sp h hs hf]

/-! ### The first of a queue -/

/-- The first element that meets a test is found, and is the one removed. -/
theorem find_removeFirst {α : Type} (p : α → Bool) (before : List α) (x : α) (after : List α)
    (h : ∀ y ∈ before, p y = false) (hx : p x = true) :
    (before ++ x :: after).find? p = some x ∧ removeFirst p (before ++ x :: after) = before ++ after := by
  induction before with
  | nil => simp [removeFirst, hx]
  | cons y ys ih =>
    have rest := ih (fun z hz => h z (by simp [hz]))
    have hy := h y (by simp)
    simp_all [removeFirst]

/-- A message joins a prompt queue that has room (R99). -/
theorem queueShow_room (serial : Nat) (style : Byte) (text : List Byte) (w : PWork)
    (h : w.b.prompt.length < Config.promptPlaces) :
    queueShow serial style text w =
      w.mod (fun b => { b with prompt := b.prompt ++ [⟨.show_ serial style text, 0⟩] }) := by
  simp [queueShow, h]

theorem queueClear_room (serial : Nat) (notify : Bool) (w : PWork) (h : w.b.prompt.length < Config.promptPlaces) :
    queueClear serial notify w = w.mod (fun b => { b with prompt := b.prompt ++ [⟨.clear serial notify, 0⟩] }) := by
  simp [queueClear, h]

/-- A wholly unsent SHOW, in the spec's words (R98). -/
theorem unsentShow_iff (m : FeedMsg) :
    m.unsentShow = true ↔ m.sent = 0 ∧ ∃ serial style text, m.body = .show_ serial style text := by
  obtain ⟨body, n⟩ := m
  cases body <;> simp [FeedMsg.unsentShow, FeedMsg.unsent, FeedMsg.showSerial?]

/-- A SHOW of a serial. -/
theorem showSerial_iff (m : FeedMsg) (serial : Nat) :
    m.showSerial? = some serial ↔ ∃ style text, m.body = .show_ serial style text := by
  obtain ⟨body, n⟩ := m
  cases body <;> simp [FeedMsg.showSerial?, eq_comm]

end Sys2Proof.Machine
end

