-- ==== Sys2Proof/Laws/State.lean ====
section
/-! SUPPORT. One lemma per field per update of the state, so that no proof unfolds a record update. -/

namespace Sys2Proof.Machine

open Sys2Proof

/-! ### modLink -/

@[simp] theorem State.modLink_powered (s : State) (f : Link → Link) : (s.modLink f).powered = s.powered := rfl
@[simp] theorem State.modLink_link (s : State) (f : Link → Link) : (s.modLink f).link = f s.link := rfl
@[simp] theorem State.modLink_evu (s : State) (f : Link → Link) : (s.modLink f).evu = s.evu := rfl
@[simp] theorem State.modLink_lines (s : State) (f : Link → Link) : (s.modLink f).lines = s.lines := rfl
@[simp] theorem State.modLink_rooms (s : State) (f : Link → Link) : (s.modLink f).rooms = s.rooms := rfl
@[simp] theorem State.modLink_roster (s : State) (f : Link → Link) : (s.modLink f).roster = s.roster := rfl
@[simp] theorem State.modLink_tracks (s : State) (f : Link → Link) : (s.modLink f).tracks = s.tracks := rfl
@[simp] theorem State.modLink_banks (s : State) (f : Link → Link) : (s.modLink f).banks = s.banks := rfl
@[simp] theorem State.modLink_arrays (s : State) (f : Link → Link) : (s.modLink f).arrays = s.arrays := rfl
@[simp] theorem State.modLink_pending (s : State) (f : Link → Link) : (s.modLink f).pending = s.pending := rfl

/-! ### modEvu -/

@[simp] theorem State.modEvu_powered (s : State) (f : EventUnit → EventUnit) : (s.modEvu f).powered = s.powered := rfl
@[simp] theorem State.modEvu_link (s : State) (f : EventUnit → EventUnit) : (s.modEvu f).link = s.link := rfl
@[simp] theorem State.modEvu_evu (s : State) (f : EventUnit → EventUnit) : (s.modEvu f).evu = f s.evu := rfl
@[simp] theorem State.modEvu_lines (s : State) (f : EventUnit → EventUnit) : (s.modEvu f).lines = s.lines := rfl
@[simp] theorem State.modEvu_rooms (s : State) (f : EventUnit → EventUnit) : (s.modEvu f).rooms = s.rooms := rfl
@[simp] theorem State.modEvu_roster (s : State) (f : EventUnit → EventUnit) : (s.modEvu f).roster = s.roster := rfl
@[simp] theorem State.modEvu_tracks (s : State) (f : EventUnit → EventUnit) : (s.modEvu f).tracks = s.tracks := rfl
@[simp] theorem State.modEvu_banks (s : State) (f : EventUnit → EventUnit) : (s.modEvu f).banks = s.banks := rfl
@[simp] theorem State.modEvu_arrays (s : State) (f : EventUnit → EventUnit) : (s.modEvu f).arrays = s.arrays := rfl
@[simp] theorem State.modEvu_pending (s : State) (f : EventUnit → EventUnit) : (s.modEvu f).pending = s.pending := rfl

/-! ### modRoom -/

@[simp] theorem State.modRoom_powered (s : State) (r : RoomNo) (f : Room → Room) : (s.modRoom r f).powered = s.powered := rfl
@[simp] theorem State.modRoom_link (s : State) (r : RoomNo) (f : Room → Room) : (s.modRoom r f).link = s.link := rfl
@[simp] theorem State.modRoom_evu (s : State) (r : RoomNo) (f : Room → Room) : (s.modRoom r f).evu = s.evu := rfl
@[simp] theorem State.modRoom_lines (s : State) (r : RoomNo) (f : Room → Room) : (s.modRoom r f).lines = s.lines := rfl
@[simp] theorem State.modRoom_rooms (s : State) (r : RoomNo) (f : Room → Room) : (s.modRoom r f).rooms = s.rooms.set r (f s.rooms[r]) := rfl
@[simp] theorem State.modRoom_roster (s : State) (r : RoomNo) (f : Room → Room) : (s.modRoom r f).roster = s.roster := rfl
@[simp] theorem State.modRoom_tracks (s : State) (r : RoomNo) (f : Room → Room) : (s.modRoom r f).tracks = s.tracks := rfl
@[simp] theorem State.modRoom_banks (s : State) (r : RoomNo) (f : Room → Room) : (s.modRoom r f).banks = s.banks := rfl
@[simp] theorem State.modRoom_arrays (s : State) (r : RoomNo) (f : Room → Room) : (s.modRoom r f).arrays = s.arrays := rfl
@[simp] theorem State.modRoom_pending (s : State) (r : RoomNo) (f : Room → Room) : (s.modRoom r f).pending = s.pending := rfl

/-! ### modBank -/

@[simp] theorem State.modBank_powered (s : State) (k : BankNo) (f : Bank → Bank) : (s.modBank k f).powered = s.powered := rfl
@[simp] theorem State.modBank_link (s : State) (k : BankNo) (f : Bank → Bank) : (s.modBank k f).link = s.link := rfl
@[simp] theorem State.modBank_evu (s : State) (k : BankNo) (f : Bank → Bank) : (s.modBank k f).evu = s.evu := rfl
@[simp] theorem State.modBank_lines (s : State) (k : BankNo) (f : Bank → Bank) : (s.modBank k f).lines = s.lines := rfl
@[simp] theorem State.modBank_rooms (s : State) (k : BankNo) (f : Bank → Bank) : (s.modBank k f).rooms = s.rooms := rfl
@[simp] theorem State.modBank_roster (s : State) (k : BankNo) (f : Bank → Bank) : (s.modBank k f).roster = s.roster := rfl
@[simp] theorem State.modBank_tracks (s : State) (k : BankNo) (f : Bank → Bank) : (s.modBank k f).tracks = s.tracks := rfl
@[simp] theorem State.modBank_banks (s : State) (k : BankNo) (f : Bank → Bank) : (s.modBank k f).banks = s.banks.set k (f s.banks[k]) := rfl
@[simp] theorem State.modBank_arrays (s : State) (k : BankNo) (f : Bank → Bank) : (s.modBank k f).arrays = s.arrays := rfl
@[simp] theorem State.modBank_pending (s : State) (k : BankNo) (f : Bank → Bank) : (s.modBank k f).pending = s.pending := rfl

/-! ### modLine -/

@[simp] theorem State.modLine_powered (s : State) (l : LineNo) (f : Line → Line) : (s.modLine l f).powered = s.powered := rfl
@[simp] theorem State.modLine_link (s : State) (l : LineNo) (f : Line → Line) : (s.modLine l f).link = s.link := rfl
@[simp] theorem State.modLine_evu (s : State) (l : LineNo) (f : Line → Line) : (s.modLine l f).evu = s.evu := rfl
@[simp] theorem State.modLine_lines (s : State) (l : LineNo) (f : Line → Line) : (s.modLine l f).lines = s.lines.set l (f s.lines[l]) := rfl
@[simp] theorem State.modLine_rooms (s : State) (l : LineNo) (f : Line → Line) : (s.modLine l f).rooms = s.rooms := rfl
@[simp] theorem State.modLine_roster (s : State) (l : LineNo) (f : Line → Line) : (s.modLine l f).roster = s.roster := rfl
@[simp] theorem State.modLine_tracks (s : State) (l : LineNo) (f : Line → Line) : (s.modLine l f).tracks = s.tracks := rfl
@[simp] theorem State.modLine_banks (s : State) (l : LineNo) (f : Line → Line) : (s.modLine l f).banks = s.banks := rfl
@[simp] theorem State.modLine_arrays (s : State) (l : LineNo) (f : Line → Line) : (s.modLine l f).arrays = s.arrays := rfl
@[simp] theorem State.modLine_pending (s : State) (l : LineNo) (f : Line → Line) : (s.modLine l f).pending = s.pending := rfl

/-! ### setArray -/

@[simp] theorem State.setArray_powered (s : State) (k : BankNo) (a : BankArray) : (s.setArray k a).powered = s.powered := rfl
@[simp] theorem State.setArray_link (s : State) (k : BankNo) (a : BankArray) : (s.setArray k a).link = s.link := rfl
@[simp] theorem State.setArray_evu (s : State) (k : BankNo) (a : BankArray) : (s.setArray k a).evu = s.evu := rfl
@[simp] theorem State.setArray_lines (s : State) (k : BankNo) (a : BankArray) : (s.setArray k a).lines = s.lines := rfl
@[simp] theorem State.setArray_rooms (s : State) (k : BankNo) (a : BankArray) : (s.setArray k a).rooms = s.rooms := rfl
@[simp] theorem State.setArray_roster (s : State) (k : BankNo) (a : BankArray) : (s.setArray k a).roster = s.roster := rfl
@[simp] theorem State.setArray_tracks (s : State) (k : BankNo) (a : BankArray) : (s.setArray k a).tracks = s.tracks := rfl
@[simp] theorem State.setArray_banks (s : State) (k : BankNo) (a : BankArray) : (s.setArray k a).banks = s.banks := rfl
@[simp] theorem State.setArray_arrays (s : State) (k : BankNo) (a : BankArray) : (s.setArray k a).arrays = s.arrays.set k a := rfl
@[simp] theorem State.setArray_pending (s : State) (k : BankNo) (a : BankArray) : (s.setArray k a).pending = s.pending := rfl

/-! ### setEntry -/

@[simp] theorem State.setEntry_powered (s : State) (i : RosterIx) (e : Option RosterEntry) : (s.setEntry i e).powered = s.powered := rfl
@[simp] theorem State.setEntry_link (s : State) (i : RosterIx) (e : Option RosterEntry) : (s.setEntry i e).link = s.link := rfl
@[simp] theorem State.setEntry_evu (s : State) (i : RosterIx) (e : Option RosterEntry) : (s.setEntry i e).evu = s.evu := rfl
@[simp] theorem State.setEntry_lines (s : State) (i : RosterIx) (e : Option RosterEntry) : (s.setEntry i e).lines = s.lines := rfl
@[simp] theorem State.setEntry_rooms (s : State) (i : RosterIx) (e : Option RosterEntry) : (s.setEntry i e).rooms = s.rooms := rfl
@[simp] theorem State.setEntry_roster (s : State) (i : RosterIx) (e : Option RosterEntry) : (s.setEntry i e).roster = s.roster.set i e := rfl
@[simp] theorem State.setEntry_tracks (s : State) (i : RosterIx) (e : Option RosterEntry) : (s.setEntry i e).tracks = s.tracks := rfl
@[simp] theorem State.setEntry_banks (s : State) (i : RosterIx) (e : Option RosterEntry) : (s.setEntry i e).banks = s.banks := rfl
@[simp] theorem State.setEntry_arrays (s : State) (i : RosterIx) (e : Option RosterEntry) : (s.setEntry i e).arrays = s.arrays := rfl
@[simp] theorem State.setEntry_pending (s : State) (i : RosterIx) (e : Option RosterEntry) : (s.setEntry i e).pending = s.pending := rfl

/-! ### modTrack -/

@[simp] theorem State.modTrack_powered (s : State) (id : Nat) (f : Track → Track) : (s.modTrack id f).powered = s.powered := rfl
@[simp] theorem State.modTrack_link (s : State) (id : Nat) (f : Track → Track) : (s.modTrack id f).link = s.link := rfl
@[simp] theorem State.modTrack_evu (s : State) (id : Nat) (f : Track → Track) : (s.modTrack id f).evu = s.evu := rfl
@[simp] theorem State.modTrack_lines (s : State) (id : Nat) (f : Track → Track) : (s.modTrack id f).lines = s.lines := rfl
@[simp] theorem State.modTrack_rooms (s : State) (id : Nat) (f : Track → Track) : (s.modTrack id f).rooms = s.rooms := rfl
@[simp] theorem State.modTrack_roster (s : State) (id : Nat) (f : Track → Track) : (s.modTrack id f).roster = s.roster := rfl
@[simp] theorem State.modTrack_tracks (s : State) (id : Nat) (f : Track → Track) : (s.modTrack id f).tracks = s.tracks.map (fun t => if t.id = id then f t else t) := rfl
@[simp] theorem State.modTrack_banks (s : State) (id : Nat) (f : Track → Track) : (s.modTrack id f).banks = s.banks := rfl
@[simp] theorem State.modTrack_arrays (s : State) (id : Nat) (f : Track → Track) : (s.modTrack id f).arrays = s.arrays := rfl
@[simp] theorem State.modTrack_pending (s : State) (id : Nat) (f : Track → Track) : (s.modTrack id f).pending = s.pending := rfl

/-! ### addTrack -/

@[simp] theorem State.addTrack_powered (s : State) (t : Track) : (s.addTrack t).powered = s.powered := rfl
@[simp] theorem State.addTrack_link (s : State) (t : Track) : (s.addTrack t).link = s.link := rfl
@[simp] theorem State.addTrack_evu (s : State) (t : Track) : (s.addTrack t).evu = s.evu := rfl
@[simp] theorem State.addTrack_lines (s : State) (t : Track) : (s.addTrack t).lines = s.lines := rfl
@[simp] theorem State.addTrack_rooms (s : State) (t : Track) : (s.addTrack t).rooms = s.rooms := rfl
@[simp] theorem State.addTrack_roster (s : State) (t : Track) : (s.addTrack t).roster = s.roster := rfl
@[simp] theorem State.addTrack_tracks (s : State) (t : Track) : (s.addTrack t).tracks = insertTrack t s.tracks := rfl
@[simp] theorem State.addTrack_banks (s : State) (t : Track) : (s.addTrack t).banks = s.banks := rfl
@[simp] theorem State.addTrack_arrays (s : State) (t : Track) : (s.addTrack t).arrays = s.arrays := rfl
@[simp] theorem State.addTrack_pending (s : State) (t : Track) : (s.addTrack t).pending = s.pending := rfl

/-! ### removeTrack -/

@[simp] theorem State.removeTrack_powered (s : State) (id : Nat) : (s.removeTrack id).powered = s.powered := rfl
@[simp] theorem State.removeTrack_link (s : State) (id : Nat) : (s.removeTrack id).link = s.link := rfl
@[simp] theorem State.removeTrack_evu (s : State) (id : Nat) : (s.removeTrack id).evu = s.evu := rfl
@[simp] theorem State.removeTrack_lines (s : State) (id : Nat) : (s.removeTrack id).lines = s.lines := rfl
@[simp] theorem State.removeTrack_rooms (s : State) (id : Nat) : (s.removeTrack id).rooms = s.rooms := rfl
@[simp] theorem State.removeTrack_roster (s : State) (id : Nat) : (s.removeTrack id).roster = s.roster := rfl
@[simp] theorem State.removeTrack_tracks (s : State) (id : Nat) : (s.removeTrack id).tracks = s.tracks.filter (fun t => !decide (t.id = id)) := rfl
@[simp] theorem State.removeTrack_banks (s : State) (id : Nat) : (s.removeTrack id).banks = s.banks := rfl
@[simp] theorem State.removeTrack_arrays (s : State) (id : Nat) : (s.removeTrack id).arrays = s.arrays := rfl
@[simp] theorem State.removeTrack_pending (s : State) (id : Nat) : (s.removeTrack id).pending = s.pending := rfl

/-! ### One element of a vector after an update -/

theorem get_set_fin {α : Type} {n : Nat} (v : Vector α n) (i j : Fin n) (x : α) :
    (v.set i x)[j] = if j = i then x else v[j] := by
  rcases i with ⟨i, hi⟩
  rcases j with ⟨j, hj⟩
  simp only [Fin.getElem_fin, Vector.getElem_set, Fin.mk.injEq]
  by_cases h : i = j
  · simp [h]
  · simp [h, Ne.symm h]

@[simp] theorem get_set_fin_same {α : Type} {n : Nat} (v : Vector α n) (i : Fin n) (x : α) : (v.set i x)[i] = x := by
  simp

theorem State.modRoom_get (s : State) (r q : RoomNo) (f : Room → Room) :
    (s.modRoom r f).rooms[q] = if q = r then f s.rooms[r] else s.rooms[q] := get_set_fin ..

theorem State.modBank_get (s : State) (k j : BankNo) (f : Bank → Bank) :
    (s.modBank k f).banks[j] = if j = k then f s.banks[k] else s.banks[j] := get_set_fin ..

theorem State.modLine_get (s : State) (l m : LineNo) (f : Line → Line) :
    (s.modLine l f).lines[m] = if m = l then f s.lines[l] else s.lines[m] := get_set_fin ..

theorem State.setArray_get (s : State) (k j : BankNo) (a : BankArray) :
    (s.setArray k a).arrays[j] = if j = k then a else s.arrays[j] := get_set_fin ..

theorem State.setEntry_get (s : State) (i j : RosterIx) (e : Option RosterEntry) :
    (s.setEntry i e).roster[j] = if j = i then e else s.roster[j] := get_set_fin ..

theorem State.modClock_clock (s : State) (r q : RoomNo) (f : Clock → Clock) :
    (s.modClock r f).clock q = if q = r then f (s.clock r) else s.clock q := by
  unfold State.clock State.modClock
  rw [State.modRoom_get]
  split <;> simp_all

@[simp] theorem State.modClock_clock_same (s : State) (r : RoomNo) (f : Clock → Clock) :
    (s.modClock r f).clock r = f (s.clock r) := by simp [State.modClock_clock]

theorem State.modComp_comp (s : State) (r q : RoomNo) (f : Composer → Composer) :
    ((s.modComp r f).rooms[q]).comp = if q = r then f (s.rooms[r]).comp else (s.rooms[q]).comp := by
  unfold State.modComp
  rw [State.modRoom_get]
  split <;> simp_all

theorem State.modBinding_binding (s : State) (r : RoomNo) (i j : BindNo) (f : Binding → Binding) :
    (s.modBinding r i f).binding r j = if j = i then f (s.binding r i) else s.binding r j := by
  unfold State.binding State.modBinding
  rw [State.modRoom_get]
  simp only [if_true]
  exact get_set_fin ..

/-! ### modClock -/

@[simp] theorem State.modClock_powered (s : State) (r : RoomNo) (f : Clock → Clock) : (s.modClock r f).powered = s.powered := rfl
@[simp] theorem State.modClock_link (s : State) (r : RoomNo) (f : Clock → Clock) : (s.modClock r f).link = s.link := rfl
@[simp] theorem State.modClock_evu (s : State) (r : RoomNo) (f : Clock → Clock) : (s.modClock r f).evu = s.evu := rfl
@[simp] theorem State.modClock_lines (s : State) (r : RoomNo) (f : Clock → Clock) : (s.modClock r f).lines = s.lines := rfl
@[simp] theorem State.modClock_roster (s : State) (r : RoomNo) (f : Clock → Clock) : (s.modClock r f).roster = s.roster := rfl
@[simp] theorem State.modClock_tracks (s : State) (r : RoomNo) (f : Clock → Clock) : (s.modClock r f).tracks = s.tracks := rfl
@[simp] theorem State.modClock_banks (s : State) (r : RoomNo) (f : Clock → Clock) : (s.modClock r f).banks = s.banks := rfl
@[simp] theorem State.modClock_arrays (s : State) (r : RoomNo) (f : Clock → Clock) : (s.modClock r f).arrays = s.arrays := rfl
@[simp] theorem State.modClock_pending (s : State) (r : RoomNo) (f : Clock → Clock) : (s.modClock r f).pending = s.pending := rfl

/-! ### modComp -/

@[simp] theorem State.modComp_powered (s : State) (r : RoomNo) (f : Composer → Composer) : (s.modComp r f).powered = s.powered := rfl
@[simp] theorem State.modComp_link (s : State) (r : RoomNo) (f : Composer → Composer) : (s.modComp r f).link = s.link := rfl
@[simp] theorem State.modComp_evu (s : State) (r : RoomNo) (f : Composer → Composer) : (s.modComp r f).evu = s.evu := rfl
@[simp] theorem State.modComp_lines (s : State) (r : RoomNo) (f : Composer → Composer) : (s.modComp r f).lines = s.lines := rfl
@[simp] theorem State.modComp_roster (s : State) (r : RoomNo) (f : Composer → Composer) : (s.modComp r f).roster = s.roster := rfl
@[simp] theorem State.modComp_tracks (s : State) (r : RoomNo) (f : Composer → Composer) : (s.modComp r f).tracks = s.tracks := rfl
@[simp] theorem State.modComp_banks (s : State) (r : RoomNo) (f : Composer → Composer) : (s.modComp r f).banks = s.banks := rfl
@[simp] theorem State.modComp_arrays (s : State) (r : RoomNo) (f : Composer → Composer) : (s.modComp r f).arrays = s.arrays := rfl
@[simp] theorem State.modComp_pending (s : State) (r : RoomNo) (f : Composer → Composer) : (s.modComp r f).pending = s.pending := rfl

/-! ### modBinding -/

@[simp] theorem State.modBinding_powered (s : State) (r : RoomNo) (i : BindNo) (f : Binding → Binding) : (s.modBinding r i f).powered = s.powered := rfl
@[simp] theorem State.modBinding_link (s : State) (r : RoomNo) (i : BindNo) (f : Binding → Binding) : (s.modBinding r i f).link = s.link := rfl
@[simp] theorem State.modBinding_evu (s : State) (r : RoomNo) (i : BindNo) (f : Binding → Binding) : (s.modBinding r i f).evu = s.evu := rfl
@[simp] theorem State.modBinding_lines (s : State) (r : RoomNo) (i : BindNo) (f : Binding → Binding) : (s.modBinding r i f).lines = s.lines := rfl
@[simp] theorem State.modBinding_roster (s : State) (r : RoomNo) (i : BindNo) (f : Binding → Binding) : (s.modBinding r i f).roster = s.roster := rfl
@[simp] theorem State.modBinding_tracks (s : State) (r : RoomNo) (i : BindNo) (f : Binding → Binding) : (s.modBinding r i f).tracks = s.tracks := rfl
@[simp] theorem State.modBinding_banks (s : State) (r : RoomNo) (i : BindNo) (f : Binding → Binding) : (s.modBinding r i f).banks = s.banks := rfl
@[simp] theorem State.modBinding_arrays (s : State) (r : RoomNo) (i : BindNo) (f : Binding → Binding) : (s.modBinding r i f).arrays = s.arrays := rfl
@[simp] theorem State.modBinding_pending (s : State) (r : RoomNo) (i : BindNo) (f : Binding → Binding) : (s.modBinding r i f).pending = s.pending := rfl

/-! ### mapBindings -/

@[simp] theorem State.mapBindings_powered (s : State) (r : RoomNo) (f : Binding → Binding) : (s.mapBindings r f).powered = s.powered := rfl
@[simp] theorem State.mapBindings_link (s : State) (r : RoomNo) (f : Binding → Binding) : (s.mapBindings r f).link = s.link := rfl
@[simp] theorem State.mapBindings_evu (s : State) (r : RoomNo) (f : Binding → Binding) : (s.mapBindings r f).evu = s.evu := rfl
@[simp] theorem State.mapBindings_lines (s : State) (r : RoomNo) (f : Binding → Binding) : (s.mapBindings r f).lines = s.lines := rfl
@[simp] theorem State.mapBindings_roster (s : State) (r : RoomNo) (f : Binding → Binding) : (s.mapBindings r f).roster = s.roster := rfl
@[simp] theorem State.mapBindings_tracks (s : State) (r : RoomNo) (f : Binding → Binding) : (s.mapBindings r f).tracks = s.tracks := rfl
@[simp] theorem State.mapBindings_banks (s : State) (r : RoomNo) (f : Binding → Binding) : (s.mapBindings r f).banks = s.banks := rfl
@[simp] theorem State.mapBindings_arrays (s : State) (r : RoomNo) (f : Binding → Binding) : (s.mapBindings r f).arrays = s.arrays := rfl
@[simp] theorem State.mapBindings_pending (s : State) (r : RoomNo) (f : Binding → Binding) : (s.mapBindings r f).pending = s.pending := rfl

end Sys2Proof.Machine
end

