-- ==== Sys2Proof/Laws/Flags.lean ====
section
/-! SUPPORT. What one occurrence of an event can do (R180, R181): to its latch, to the other latches, to the outbound
queue and to nothing else. -/

namespace Sys2Proof.Machine

open Sys2Proof

/-! ### Latches -/

theorem RoomClass.index_inj (a b : RoomClass) (h : a.index = b.index) : a = b := by
  cases a <;> cases b <;> first | rfl | (exact absurd h (by decide))

theorem DeviceClass.index_inj (a b : DeviceClass) (h : a.index = b.index) : a = b := by
  cases a <;> cases b <;> first | rfl | (exact absurd h (by decide))

theorem EventUnit.latch_setLatch (u : EventUnit) (e o : EventId) (l : Latch) :
    (u.setLatch e l).latch o = if o = e then l else u.latch o := by
  cases e with
  | room r c =>
    cases o with
    | room r' c' =>
      simp only [EventUnit.setLatch, EventUnit.latch, get_set_fin]
      by_cases hr : r' = r
      · subst hr
        simp only [if_true, get_set_fin]
        by_cases hc : c' = c
        · subst hc
          simp
        · have : c'.index ≠ c.index := fun h => hc (RoomClass.index_inj _ _ h)
          simp [this, hc]
      · simp [hr]
    | device c' => simp [EventUnit.setLatch, EventUnit.latch]
  | device c =>
    cases o with
    | room r' c' => simp [EventUnit.setLatch, EventUnit.latch]
    | device c' =>
      simp only [EventUnit.setLatch, EventUnit.latch, get_set_fin]
      by_cases hc : c' = c
      · subst hc
        simp
      · have : c'.index ≠ c.index := fun h => hc (DeviceClass.index_inj _ _ h)
        simp [this, hc]

@[simp] theorem EventUnit.setLatch_switch (u : EventUnit) (e : EventId) (l : Latch) :
    (u.setLatch e l).switch = u.switch := by cases e <;> rfl

@[simp] theorem EventUnit.setLatch_mask (u : EventUnit) (e : EventId) (l : Latch) :
    (u.setLatch e l).mask = u.mask := by cases e <;> rfl

@[simp] theorem EventUnit.setLatch_owed (u : EventUnit) (e : EventId) (l : Latch) :
    (u.setLatch e l).owed = u.owed := by cases e <;> rfl

/-! ### A raise -/

/-- Everything a raise can do: the event unit and the outbound queue change, the queue by notices at its tail. -/
theorem State.raise_spec (s : State) (e : EventId) :
    ∃ (u : EventUnit) (ns : List OutMsg),
      s.raise e = { s with evu := u, link := { s.link with outbound := s.link.outbound ++ ns } } ∧
        (∀ m ∈ ns, m.isNotice = true) ∧ u.switch = s.evu.switch ∧ u.mask = s.evu.mask ∧
        (∀ o, o ≠ e → u.latch o = s.evu.latch o) ∧
        ((u.latch e).set_, (u.latch e).count) = (s.evu.latch e).afterRaise := by
  unfold State.raise
  simp only []
  split
  · rename_i hset
    refine ⟨s.evu.setLatch e { s.evu.latch e with count := min 255 ((s.evu.latch e).count + 1) }, [], ?_, ?_, ?_, ?_, ?_, ?_⟩
    · simp [State.modEvu]
    · simp
    · simp
    · simp
    · intro o ho
      simp [EventUnit.latch_setLatch, ho]
    · simp [EventUnit.latch_setLatch, Latch.afterRaise, hset]
  · rename_i hset
    have ha : (s.evu.latch e).afterRaise = (true, 1) := by simp [Latch.afterRaise, hset]
    split
    · split
      · refine ⟨(s.evu.setLatch e { s.evu.latch e with set_ := true, count := 1 }).setLatch e
          ⟨true, 1, true⟩, [.notice e 1], ?_, ?_, ?_, ?_, ?_, ?_⟩
        · simp [State.queueNotice, State.modEvu, EventUnit.latch_setLatch]
        · simp [OutMsg.isNotice]
        · simp
        · simp
        · intro o ho
          simp [EventUnit.latch_setLatch, ho]
        · simp [EventUnit.latch_setLatch, ha]
      · refine ⟨{ s.evu.setLatch e { s.evu.latch e with set_ := true, count := 1 } with owed := s.evu.owed ++ [e] },
          [], ?_, ?_, ?_, ?_, ?_, ?_⟩
        · simp [State.modEvu]
        · simp
        · simp
        · simp
        · intro o ho
          have := EventUnit.latch_setLatch s.evu e o { s.evu.latch e with set_ := true, count := 1 }
          rw [if_neg ho] at this
          exact this
        · have := EventUnit.latch_setLatch s.evu e e { s.evu.latch e with set_ := true, count := 1 }
          rw [if_pos rfl] at this
          rw [ha]
          exact congrArg (fun l : Latch => (l.set_, l.count)) this
    · refine ⟨s.evu.setLatch e { s.evu.latch e with set_ := true, count := 1 }, [], ?_, ?_, ?_, ?_, ?_, ?_⟩
      · simp [State.modEvu]
      · simp
      · simp
      · simp
      · intro o ho
        simp [EventUnit.latch_setLatch, ho]
      · simp [EventUnit.latch_setLatch, ha]

/-- One occurrence is one occurrence (R180). -/
theorem State.raise_once (s : State) (e : EventId) : RaisedOnce s (s.raise e) e := by
  obtain ⟨u, ns, h, -, -, -, -, hl⟩ := s.raise_spec e
  rw [RaisedOnce, h]
  exact hl

theorem State.raise_others (s : State) (e : EventId) : sameOtherEvents s (s.raise e) e := by
  obtain ⟨u, ns, h, -, hs, hm, ho, -⟩ := s.raise_spec e
  rw [sameOtherEvents, h]
  exact ⟨ho, hs, hm⟩

theorem State.raise_outbound (s : State) (e : EventId) :
    ∃ ns : List OutMsg, (∀ m ∈ ns, m.isNotice = true) ∧ (s.raise e).link.outbound = s.link.outbound ++ ns := by
  obtain ⟨u, ns, h, hn, -⟩ := s.raise_spec e
  exact ⟨ns, hn, by rw [h]⟩

theorem State.raise_link (s : State) (e : EventId) :
    (s.raise e).link = { s.link with outbound := (s.raise e).link.outbound } := by
  obtain ⟨u, ns, h, -⟩ := s.raise_spec e
  rw [h]

end Sys2Proof.Machine
end

