-- ==== Sys2Proof/Laws/Link.lean ====
section
/-! SUPPORT. What entering the inbound queue and answering in the same event can do. -/

namespace Sys2Proof.Machine

open Sys2Proof

/-! ### Places -/

/-- While fewer than eight places are held, a free one exists, and no command holds it. -/
theorem freePlace_free (inbound : List Inbound) (h : inbound.length < Config.inboundPlaces) :
    ∀ c ∈ inbound, c.place ≠ freePlace inbound := by
  have key : ∃ p ∈ List.range Config.inboundPlaces, !(inbound.any (fun c => decide (c.place = p))) := by
    by_contra hno
    push Not at hno
    have hsub : List.range Config.inboundPlaces ⊆ inbound.map (·.place) := by
      intro p hp
      have hp' := hno p hp
      simp only [Bool.not_eq_true, Bool.not_eq_false', List.any_eq_true, decide_eq_true_eq] at hp'
      obtain ⟨c, hc, rfl⟩ := hp'
      exact List.mem_map_of_mem hc
    have := (List.subperm_of_subset List.nodup_range hsub).length_le
    simp at this
    omega
  unfold freePlace
  obtain ⟨p, hp, hf⟩ := key
  cases hres : (List.range Config.inboundPlaces).find? (fun p => !(inbound.any (fun c => decide (c.place = p)))) with
  | none => exact absurd hf (by simpa using List.find?_eq_none.1 hres p hp)
  | some q =>
    have hq := List.find?_some hres
    intro c hc heq
    simp only [Option.getD_some] at heq
    simp only [Bool.not_eq_true', List.any_eq_false, decide_eq_true_eq] at hq
    exact hq c hc heq

theorem freePlace_lt (inbound : List Inbound) : freePlace inbound < Config.inboundPlaces := by
  unfold freePlace
  cases hres : (List.range Config.inboundPlaces).find? (fun p => !(inbound.any (fun c => decide (c.place = p)))) with
  | none => simp [Config.inboundPlaces]
  | some q => simpa using List.mem_range.1 (List.mem_of_find?_eq_some hres)

/-- Entering leaves the place, the tag and the type of the command at the free place. -/
theorem Link.tagOf_enter (l : Link) (tag : Byte) (type : Nat) (h : l.inbound.length < Config.inboundPlaces) :
    (l.enter (freePlace l.inbound) tag type).tagOf (freePlace l.inbound) = tag := by
  have hf := freePlace_free l.inbound h
  have hnone : l.inbound.find? (fun c => decide (c.place = freePlace l.inbound)) = none := by
    rw [List.find?_eq_none]
    intro c hc
    simpa using hf c hc
  unfold Link.tagOf Link.enter
  rw [List.find?_append, hnone]
  simp

/-- A command that enters and is answered at once leaves exactly its place and its reply. -/
theorem Link.answer_enter (l : Link) (type : Nat) (tag : Byte) (done : Bool) (body : List Byte)
    (h : l.inbound.length < Config.inboundPlaces) :
    (l.enter (freePlace l.inbound) tag type).answer (freePlace l.inbound) done body = l.replied type tag done body := by
  have hf := freePlace_free l.inbound h
  have htag := Link.tagOf_enter l tag type h
  unfold Link.answer Link.replied
  rw [htag]
  have hmap : (l.enter (freePlace l.inbound) tag type).inbound.map
      (fun c => if c.place = freePlace l.inbound then { c with answered := true } else c) =
      l.inbound ++ [⟨freePlace l.inbound, tag, type, 0, true⟩] := by
    simp only [Link.enter, List.map_append, List.map_cons, List.map_nil, if_true]
    congr 1
    calc l.inbound.map (fun c => if c.place = freePlace l.inbound then { c with answered := true } else c)
        = l.inbound.map id := List.map_congr_left (fun c hc => by simp [hf c hc])
      _ = l.inbound := List.map_id _
  rw [hmap]
  simp [Link.enter]

/-- The state with the command in its place, open. -/
def State.entered (s : State) (type : Nat) (tag : Byte) : State :=
  s.modLink (fun l => l.enter (freePlace l.inbound) tag type)

theorem State.command_ready (s : State) (type : Nat) (tag : Byte) (own : Nat → State → State) (h : s.ready) :
    s.command type tag own = own (freePlace s.link.inbound) (s.entered type tag) := by
  obtain ⟨hp, hr, hl⟩ := h
  simp [State.command, State.ifPowered, State.takeCommand, State.entered, State.modLink, hp, hr, Nat.not_le.2 hl]

/-- DONE at once, nothing else changed. -/
theorem State.done_entered (s : State) (type : Nat) (tag : Byte) (body : List Byte) (h : s.ready) :
    (s.entered type tag).done (freePlace s.link.inbound) body = s.replied type tag true body := by
  unfold State.done State.entered State.replied State.modLink
  simp only [Link.answer_enter _ _ _ _ _ h.2.2]

/-- REFUSED at once, nothing else changed (R174). -/
theorem State.refuse_entered (s : State) (type : Nat) (tag : Byte) (reason : Reason) (detail : Nat) (h : s.ready) :
    (s.entered type tag).refuse (freePlace s.link.inbound) reason detail = s.refusedWith type tag reason detail := by
  unfold State.refuse State.entered State.refusedWith State.replied State.modLink refusedBody
  simp only [Link.answer_enter _ _ _ _ _ h.2.2]

/-- An effect that leaves the link alone, then DONE: the effect, with the place and the reply. -/
theorem State.done_of_link (s t : State) (type : Nat) (tag : Byte) (body : List Byte) (h : s.ready)
    (ht : t.link = (s.entered type tag).link) :
    t.done (freePlace s.link.inbound) body = { t with link := s.link.replied type tag true body } := by
  unfold State.done State.modLink
  rw [ht]
  unfold State.entered State.modLink
  simp only [Link.answer_enter _ _ _ _ _ h.2.2]

/-! ### What entering leaves alone -/

@[simp] theorem State.entered_powered (s : State) (type : Nat) (tag : Byte) : (s.entered type tag).powered = s.powered := rfl
@[simp] theorem State.entered_evu (s : State) (type : Nat) (tag : Byte) : (s.entered type tag).evu = s.evu := rfl
@[simp] theorem State.entered_lines (s : State) (type : Nat) (tag : Byte) : (s.entered type tag).lines = s.lines := rfl
@[simp] theorem State.entered_rooms (s : State) (type : Nat) (tag : Byte) : (s.entered type tag).rooms = s.rooms := rfl
@[simp] theorem State.entered_roster (s : State) (type : Nat) (tag : Byte) : (s.entered type tag).roster = s.roster := rfl
@[simp] theorem State.entered_tracks (s : State) (type : Nat) (tag : Byte) : (s.entered type tag).tracks = s.tracks := rfl
@[simp] theorem State.entered_banks (s : State) (type : Nat) (tag : Byte) : (s.entered type tag).banks = s.banks := rfl
@[simp] theorem State.entered_arrays (s : State) (type : Nat) (tag : Byte) : (s.entered type tag).arrays = s.arrays := rfl
@[simp] theorem State.entered_pending (s : State) (type : Nat) (tag : Byte) : (s.entered type tag).pending = s.pending := rfl
@[simp] theorem State.entered_clock (s : State) (type : Nat) (tag : Byte) (r : RoomNo) :
    (s.entered type tag).clock r = s.clock r := rfl
@[simp] theorem State.entered_mounting (s : State) (type : Nat) (tag : Byte) :
    (s.entered type tag).mounting = s.mounting := rfl
@[simp] theorem State.entered_track? (s : State) (type : Nat) (tag : Byte) (id : Nat) :
    (s.entered type tag).track? id = s.track? id := rfl
@[simp] theorem State.entered_binding (s : State) (type : Nat) (tag : Byte) (r : RoomNo) (i : BindNo) :
    (s.entered type tag).binding r i = s.binding r i := rfl

/-! ### Room numbers -/

/-- A room number above 15 is refused BAD_ARG, nothing else changed. -/
theorem State.withRoom_beyond (s : State) (type : Nat) (tag : Byte) (room : Nat) (own : RoomNo → State) (h : s.ready)
    (hr : 15 < room) :
    (s.entered type tag).withRoom (freePlace s.link.inbound) room own = s.refusedWith type tag .badArg 0 := by
  unfold State.withRoom
  rw [dif_neg (by omega), State.refuse_entered _ _ _ _ _ h]

/-! ### The transmitter (R167, R178) -/

/-- An idle transmitter holds its line high, and a tick does nothing to it. -/
theorem Link.transmitLine_idle (l : Link) (h : l.outbound = []) : l.transmitLine = true ∧ l.tickSend = l := by
  simp [Link.transmitLine, Link.tickSend, h]

/-- A byte takes ten bit times. -/
theorem lineBits_length (b : Byte) : (lineBits b).length = 10 := rfl

/-! ### Rooms by number -/

theorem State.withRoom_room (s : State) (place : Nat) (r : RoomNo) (own : RoomNo → State) :
    s.withRoom place r.val own = own r := by
  simp [State.withRoom, r.isLt]

end Sys2Proof.Machine
end

