-- ==== Sys2Proof/Laws/Frames.lean ====
section
/-! SUPPORT. The parts of the state that each shared operation leaves alone: one lemma per operation and part. -/

namespace Sys2Proof.Machine

open Sys2Proof

/-- What every step of a fold keeps, the fold keeps. -/
theorem foldl_keeps {β γ : Type} (g : State → β) (f : State → γ → State) (h : ∀ s c, g (f s c) = g s) (l : List γ)
    (s : State) : g (l.foldl f s) = g s := by
  induction l generalizing s with
  | nil => rfl
  | cons c t ih => exact (ih (f s c)).trans (h s c)

@[simp] theorem State.raise_frame (s : State) (e : EventId) :
    (s.raise e).powered = s.powered ∧ (s.raise e).lines = s.lines ∧ (s.raise e).rooms = s.rooms ∧
    (s.raise e).roster = s.roster ∧ (s.raise e).tracks = s.tracks ∧ (s.raise e).banks = s.banks ∧
    (s.raise e).arrays = s.arrays ∧ (s.raise e).pending = s.pending := by
  obtain ⟨u, ns, h, -⟩ := s.raise_spec e
  rw [h]
  simp

@[simp] theorem State.raiseRoom_frame (s : State) (r : RoomNo) (c : RoomClass) :
    (s.raiseRoom r c).powered = s.powered ∧ (s.raiseRoom r c).lines = s.lines ∧
    (s.raiseRoom r c).rooms = s.rooms ∧ (s.raiseRoom r c).roster = s.roster ∧
    (s.raiseRoom r c).tracks = s.tracks ∧ (s.raiseRoom r c).banks = s.banks ∧
    (s.raiseRoom r c).arrays = s.arrays ∧ (s.raiseRoom r c).pending = s.pending := by
  unfold State.raiseRoom
  try dsimp only
  repeat' split
  all_goals simp

@[simp] theorem State.raiseDevice_frame (s : State) (c : DeviceClass) :
    (s.raiseDevice c).powered = s.powered ∧ (s.raiseDevice c).lines = s.lines ∧
    (s.raiseDevice c).rooms = s.rooms ∧ (s.raiseDevice c).roster = s.roster ∧
    (s.raiseDevice c).tracks = s.tracks ∧ (s.raiseDevice c).banks = s.banks ∧
    (s.raiseDevice c).arrays = s.arrays ∧ (s.raiseDevice c).pending = s.pending := by
  unfold State.raiseDevice
  try dsimp only
  repeat' split
  all_goals simp

@[simp] theorem State.queueNotice_frame (s : State) (e : EventId) :
    (s.queueNotice e).powered = s.powered ∧ (s.queueNotice e).lines = s.lines ∧
    (s.queueNotice e).rooms = s.rooms ∧ (s.queueNotice e).roster = s.roster ∧
    (s.queueNotice e).tracks = s.tracks ∧ (s.queueNotice e).banks = s.banks ∧
    (s.queueNotice e).arrays = s.arrays ∧ (s.queueNotice e).pending = s.pending := ⟨rfl, rfl, rfl, rfl, rfl, rfl, rfl, rfl⟩

@[simp] theorem serveOwedN_frame (n : Nat) (s : State) :
    (serveOwedN n s).powered = s.powered ∧ (serveOwedN n s).lines = s.lines ∧
    (serveOwedN n s).rooms = s.rooms ∧ (serveOwedN n s).roster = s.roster ∧
    (serveOwedN n s).tracks = s.tracks ∧ (serveOwedN n s).banks = s.banks ∧
    (serveOwedN n s).arrays = s.arrays ∧ (serveOwedN n s).pending = s.pending := by
  induction n generalizing s with
  | zero => simp [serveOwedN]
  | succ n ih =>
    unfold serveOwedN
    split
    · simp
    · split
      · simp [ih]
      · simp

@[simp] theorem State.serveOwed_frame (s : State) :
    (s.serveOwed).powered = s.powered ∧ (s.serveOwed).lines = s.lines ∧ (s.serveOwed).rooms = s.rooms ∧
    (s.serveOwed).roster = s.roster ∧ (s.serveOwed).tracks = s.tracks ∧ (s.serveOwed).banks = s.banks ∧
    (s.serveOwed).arrays = s.arrays ∧ (s.serveOwed).pending = s.pending := by
  unfold State.serveOwed
  try dsimp only
  repeat' split
  all_goals simp

@[simp] theorem State.clearLatch_frame (s : State) (e : EventId) :
    (s.clearLatch e).powered = s.powered ∧ (s.clearLatch e).lines = s.lines ∧
    (s.clearLatch e).rooms = s.rooms ∧ (s.clearLatch e).roster = s.roster ∧
    (s.clearLatch e).tracks = s.tracks ∧ (s.clearLatch e).banks = s.banks ∧
    (s.clearLatch e).arrays = s.arrays ∧ (s.clearLatch e).pending = s.pending := ⟨rfl, rfl, rfl, rfl, rfl, rfl, rfl, rfl⟩

@[simp] theorem State.clearRoomScope_frame (s : State) (r : RoomNo) :
    (s.clearRoomScope r).powered = s.powered ∧ (s.clearRoomScope r).lines = s.lines ∧
    (s.clearRoomScope r).rooms = s.rooms ∧ (s.clearRoomScope r).roster = s.roster ∧
    (s.clearRoomScope r).tracks = s.tracks ∧ (s.clearRoomScope r).banks = s.banks ∧
    (s.clearRoomScope r).arrays = s.arrays ∧ (s.clearRoomScope r).pending = s.pending := by
  unfold State.clearRoomScope
  refine ⟨?_, ?_, ?_, ?_, ?_, ?_, ?_, ?_⟩ <;> exact foldl_keeps _ _ (fun _ _ => by simp) _ _

@[simp] theorem State.done_frame (s : State) (place : Nat) (body : List Byte) :
    (s.done place body).powered = s.powered ∧ (s.done place body).evu = s.evu ∧
    (s.done place body).lines = s.lines ∧ (s.done place body).rooms = s.rooms ∧
    (s.done place body).roster = s.roster ∧ (s.done place body).tracks = s.tracks ∧
    (s.done place body).banks = s.banks ∧ (s.done place body).arrays = s.arrays ∧
    (s.done place body).pending = s.pending := ⟨rfl, rfl, rfl, rfl, rfl, rfl, rfl, rfl, rfl⟩

@[simp] theorem State.refuse_frame (s : State) (place : Nat) (reason : Reason) (detail : Nat) :
    (s.refuse place reason detail).powered = s.powered ∧ (s.refuse place reason detail).evu = s.evu ∧
    (s.refuse place reason detail).lines = s.lines ∧ (s.refuse place reason detail).rooms = s.rooms ∧
    (s.refuse place reason detail).roster = s.roster ∧ (s.refuse place reason detail).tracks = s.tracks ∧
    (s.refuse place reason detail).banks = s.banks ∧ (s.refuse place reason detail).arrays = s.arrays ∧
    (s.refuse place reason detail).pending = s.pending := ⟨rfl, rfl, rfl, rfl, rfl, rfl, rfl, rfl, rfl⟩

@[simp] theorem State.defer_frame (s : State) (place track : Nat) :
    (s.defer place track).powered = s.powered ∧ (s.defer place track).evu = s.evu ∧
    (s.defer place track).lines = s.lines ∧ (s.defer place track).rooms = s.rooms ∧
    (s.defer place track).roster = s.roster ∧ (s.defer place track).tracks = s.tracks ∧
    (s.defer place track).banks = s.banks ∧ (s.defer place track).arrays = s.arrays ∧
    (s.defer place track).pending = s.pending := ⟨rfl, rfl, rfl, rfl, rfl, rfl, rfl, rfl, rfl⟩

@[simp] theorem State.doneDeferred_frame (s : State) (type track : Nat) (body : List Byte) :
    (s.doneDeferred type track body).powered = s.powered ∧ (s.doneDeferred type track body).evu = s.evu ∧
    (s.doneDeferred type track body).lines = s.lines ∧ (s.doneDeferred type track body).rooms = s.rooms ∧
    (s.doneDeferred type track body).roster = s.roster ∧
    (s.doneDeferred type track body).tracks = s.tracks ∧ (s.doneDeferred type track body).banks = s.banks ∧
    (s.doneDeferred type track body).arrays = s.arrays ∧
    (s.doneDeferred type track body).pending = s.pending := by
  unfold State.doneDeferred
  try dsimp only
  repeat' split
  all_goals simp

@[simp] theorem State.refuseDeferred_frame (s : State) (type track : Nat) (reason : Reason) (detail : Nat) :
    (s.refuseDeferred type track reason detail).powered = s.powered ∧
    (s.refuseDeferred type track reason detail).evu = s.evu ∧
    (s.refuseDeferred type track reason detail).lines = s.lines ∧
    (s.refuseDeferred type track reason detail).rooms = s.rooms ∧
    (s.refuseDeferred type track reason detail).roster = s.roster ∧
    (s.refuseDeferred type track reason detail).tracks = s.tracks ∧
    (s.refuseDeferred type track reason detail).banks = s.banks ∧
    (s.refuseDeferred type track reason detail).arrays = s.arrays ∧
    (s.refuseDeferred type track reason detail).pending = s.pending := by
  unfold State.refuseDeferred
  try dsimp only
  repeat' split
  all_goals simp

@[simp] theorem State.refreshPin_frame (s : State) (l : LineNo) :
    (s.refreshPin l).powered = s.powered ∧ (s.refreshPin l).evu = s.evu ∧
    (s.refreshPin l).rooms = s.rooms ∧ (s.refreshPin l).roster = s.roster ∧
    (s.refreshPin l).tracks = s.tracks ∧ (s.refreshPin l).banks = s.banks ∧
    (s.refreshPin l).arrays = s.arrays ∧ (s.refreshPin l).pending = s.pending := ⟨rfl, rfl, rfl, rfl, rfl, rfl, rfl, rfl⟩

@[simp] theorem State.refreshTally_frame (s : State) (r : RoomNo) :
    (s.refreshTally r).powered = s.powered ∧ (s.refreshTally r).evu = s.evu ∧
    (s.refreshTally r).rooms = s.rooms ∧ (s.refreshTally r).roster = s.roster ∧
    (s.refreshTally r).tracks = s.tracks ∧ (s.refreshTally r).banks = s.banks ∧
    (s.refreshTally r).arrays = s.arrays ∧ (s.refreshTally r).pending = s.pending := by
  unfold State.refreshTally
  try dsimp only
  repeat' split
  all_goals simp

@[simp] theorem State.judgeClaim_frame (before s : State) (r : RoomNo) (f : LineFn) :
    (before.judgeClaim s r f).powered = s.powered ∧ (before.judgeClaim s r f).lines = s.lines ∧
    (before.judgeClaim s r f).rooms = s.rooms ∧ (before.judgeClaim s r f).roster = s.roster ∧
    (before.judgeClaim s r f).tracks = s.tracks ∧ (before.judgeClaim s r f).banks = s.banks ∧
    (before.judgeClaim s r f).arrays = s.arrays ∧ (before.judgeClaim s r f).pending = s.pending := by
  unfold State.judgeClaim
  try dsimp only
  repeat' split
  all_goals simp

@[simp] theorem State.judgeClaims_frame (before s : State) (r : RoomNo) :
    (before.judgeClaims s r).powered = s.powered ∧ (before.judgeClaims s r).lines = s.lines ∧
    (before.judgeClaims s r).rooms = s.rooms ∧ (before.judgeClaims s r).roster = s.roster ∧
    (before.judgeClaims s r).tracks = s.tracks ∧ (before.judgeClaims s r).banks = s.banks ∧
    (before.judgeClaims s r).arrays = s.arrays ∧ (before.judgeClaims s r).pending = s.pending := by
  unfold State.judgeClaims
  refine ⟨?_, ?_, ?_, ?_, ?_, ?_, ?_, ?_⟩ <;> exact foldl_keeps _ _ (fun _ _ => by simp) _ _

@[simp] theorem State.enterShow_frame (s : State) (r : RoomNo) (f : Clock → Clock) :
    (s.enterShow r f).powered = s.powered ∧ (s.enterShow r f).lines = s.lines ∧
    (s.enterShow r f).roster = s.roster ∧ (s.enterShow r f).tracks = s.tracks ∧
    (s.enterShow r f).banks = s.banks ∧ (s.enterShow r f).arrays = s.arrays ∧
    (s.enterShow r f).pending = s.pending := by
  unfold State.enterShow
  try dsimp only
  repeat' split
  all_goals simp

@[simp] theorem State.addCause_frame (s : State) (r : RoomNo) (f : Holds → Holds) :
    (s.addCause r f).powered = s.powered ∧ (s.addCause r f).roster = s.roster ∧
    (s.addCause r f).tracks = s.tracks ∧ (s.addCause r f).banks = s.banks ∧
    (s.addCause r f).arrays = s.arrays ∧ (s.addCause r f).pending = s.pending := by
  unfold State.addCause
  try dsimp only
  repeat' split
  all_goals simp

@[simp] theorem State.dropCause_frame (s : State) (r : RoomNo) (f : Holds → Holds) :
    (s.dropCause r f).powered = s.powered ∧ (s.dropCause r f).roster = s.roster ∧
    (s.dropCause r f).tracks = s.tracks ∧ (s.dropCause r f).banks = s.banks ∧
    (s.dropCause r f).arrays = s.arrays ∧ (s.dropCause r f).pending = s.pending := by
  unfold State.dropCause
  try dsimp only
  repeat' split
  all_goals simp

@[simp] theorem State.enterEnded_frame (s : State) (r : RoomNo) :
    (s.enterEnded r).powered = s.powered ∧ (s.enterEnded r).roster = s.roster ∧
    (s.enterEnded r).tracks = s.tracks ∧ (s.enterEnded r).banks = s.banks ∧
    (s.enterEnded r).arrays = s.arrays ∧ (s.enterEnded r).pending = s.pending := by
  unfold State.enterEnded
  try dsimp only
  repeat' split
  all_goals simp

@[simp] theorem State.countFrame_frame (s : State) (r : RoomNo) :
    (s.countFrame r).powered = s.powered ∧ (s.countFrame r).roster = s.roster ∧
    (s.countFrame r).tracks = s.tracks ∧ (s.countFrame r).banks = s.banks ∧
    (s.countFrame r).arrays = s.arrays ∧ (s.countFrame r).pending = s.pending := by
  unfold State.countFrame
  try dsimp only
  repeat' split
  all_goals simp

@[simp] theorem State.takePulse_frame (s : State) (r : RoomNo) :
    (s.takePulse r).powered = s.powered ∧ (s.takePulse r).roster = s.roster ∧
    (s.takePulse r).tracks = s.tracks ∧ (s.takePulse r).banks = s.banks ∧
    (s.takePulse r).arrays = s.arrays ∧ (s.takePulse r).pending = s.pending := by
  unfold State.takePulse
  try dsimp only
  repeat' split
  all_goals simp

@[simp] theorem State.runEdge_frame (s : State) (r : RoomNo) (level : Bool) :
    (s.runEdge r level).powered = s.powered ∧ (s.runEdge r level).roster = s.roster ∧
    (s.runEdge r level).tracks = s.tracks ∧ (s.runEdge r level).banks = s.banks ∧
    (s.runEdge r level).arrays = s.arrays ∧ (s.runEdge r level).pending = s.pending := by
  unfold State.runEdge
  try dsimp only
  repeat' split
  all_goals simp

@[simp] theorem State.syncExpiry_frame (s : State) (r : RoomNo) :
    (s.syncExpiry r).powered = s.powered ∧ (s.syncExpiry r).roster = s.roster ∧
    (s.syncExpiry r).tracks = s.tracks ∧ (s.syncExpiry r).banks = s.banks ∧
    (s.syncExpiry r).arrays = s.arrays ∧ (s.syncExpiry r).pending = s.pending := by
  unfold State.syncExpiry
  try dsimp only
  repeat' split
  all_goals simp

@[simp] theorem State.dividerExpiry_frame (s : State) (r : RoomNo) :
    (s.dividerExpiry r).powered = s.powered ∧ (s.dividerExpiry r).roster = s.roster ∧
    (s.dividerExpiry r).tracks = s.tracks ∧ (s.dividerExpiry r).banks = s.banks ∧
    (s.dividerExpiry r).arrays = s.arrays ∧ (s.dividerExpiry r).pending = s.pending := by
  unfold State.dividerExpiry
  try dsimp only
  repeat' split
  all_goals simp

@[simp] theorem State.prescalerExpiry_frame (s : State) (r : RoomNo) (div : Nat) :
    (s.prescalerExpiry r div).powered = s.powered ∧ (s.prescalerExpiry r div).roster = s.roster ∧
    (s.prescalerExpiry r div).tracks = s.tracks ∧ (s.prescalerExpiry r div).banks = s.banks ∧
    (s.prescalerExpiry r div).arrays = s.arrays ∧ (s.prescalerExpiry r div).pending = s.pending := by
  unfold State.prescalerExpiry
  try dsimp only
  repeat' split
  all_goals simp

@[simp] theorem State.runEdges_frame (before s : State) :
    (before.runEdges s).powered = s.powered ∧ (before.runEdges s).roster = s.roster ∧
    (before.runEdges s).tracks = s.tracks ∧ (before.runEdges s).banks = s.banks ∧
    (before.runEdges s).arrays = s.arrays ∧ (before.runEdges s).pending = s.pending := by
  unfold State.runEdges
  refine ⟨?_, ?_, ?_, ?_, ?_, ?_⟩ <;> exact foldl_keeps _ _ (fun _ _ => by split <;> simp) _ _

@[simp] theorem State.pulseOn_frame (before s : State) (l : LineNo) (x : State) :
    (before.pulseOn s l x).powered = x.powered ∧ (before.pulseOn s l x).roster = x.roster ∧
    (before.pulseOn s l x).tracks = x.tracks ∧ (before.pulseOn s l x).banks = x.banks ∧
    (before.pulseOn s l x).arrays = x.arrays ∧ (before.pulseOn s l x).pending = x.pending := by
  unfold State.pulseOn
  try dsimp only
  repeat' split
  all_goals simp

@[simp] theorem State.settle_frame (before s : State) (ls : List LineNo) :
    (before.settle s ls).powered = s.powered ∧ (before.settle s ls).roster = s.roster ∧
    (before.settle s ls).tracks = s.tracks ∧ (before.settle s ls).banks = s.banks ∧
    (before.settle s ls).arrays = s.arrays ∧ (before.settle s ls).pending = s.pending := by
  unfold State.settle
  refine ⟨?_, ?_, ?_, ?_, ?_, ?_⟩ <;>
    refine (foldl_keeps _ _ (fun _ _ => by simp) _ _).trans ?_ <;>
    simp only [State.runEdges_frame] <;>
    exact foldl_keeps _ _ (fun _ _ => by simp) _ _

@[simp] theorem State.driveFrom_frame (s : State) (l : LineNo) (drive : Option Bool) :
    (s.driveFrom l drive).powered = s.powered ∧ (s.driveFrom l drive).roster = s.roster ∧
    (s.driveFrom l drive).tracks = s.tracks ∧ (s.driveFrom l drive).banks = s.banks ∧
    (s.driveFrom l drive).arrays = s.arrays ∧ (s.driveFrom l drive).pending = s.pending := by
  unfold State.driveFrom
  try dsimp only
  repeat' split
  all_goals simp

@[simp] theorem State.joinLines_frame (before s : State) (r : RoomNo) :
    (before.joinLines s r).powered = s.powered ∧ (before.joinLines s r).roster = s.roster ∧
    (before.joinLines s r).tracks = s.tracks ∧ (before.joinLines s r).banks = s.banks ∧
    (before.joinLines s r).arrays = s.arrays ∧ (before.joinLines s r).pending = s.pending := by
  unfold State.joinLines
  try dsimp only
  repeat' split
  all_goals simp

@[simp] theorem State.leaveLines_frame (before s : State) (r : RoomNo) :
    (before.leaveLines s r).powered = s.powered ∧ (before.leaveLines s r).roster = s.roster ∧
    (before.leaveLines s r).tracks = s.tracks ∧ (before.leaveLines s r).banks = s.banks ∧
    (before.leaveLines s r).arrays = s.arrays ∧ (before.leaveLines s r).pending = s.pending := by
  unfold State.leaveLines
  try dsimp only
  repeat' split
  all_goals simp

@[simp] theorem State.submitFetch_frame (s : State) (k : BankNo) (q : FetchReq) :
    (s.submitFetch k q).powered = s.powered ∧ (s.submitFetch k q).evu = s.evu ∧
    (s.submitFetch k q).lines = s.lines ∧ (s.submitFetch k q).rooms = s.rooms ∧
    (s.submitFetch k q).roster = s.roster ∧ (s.submitFetch k q).tracks = s.tracks ∧
    (s.submitFetch k q).arrays = s.arrays ∧ (s.submitFetch k q).pending = s.pending := ⟨rfl, rfl, rfl, rfl, rfl, rfl, rfl, rfl⟩

@[simp] theorem State.runBinding_frame (s : State) (r : RoomNo) (i : BindNo) (f : PCtx → PWork → PWork) :
    (s.runBinding r i f).powered = s.powered ∧ (s.runBinding r i f).lines = s.lines ∧
    (s.runBinding r i f).roster = s.roster ∧ (s.runBinding r i f).tracks = s.tracks ∧
    (s.runBinding r i f).arrays = s.arrays ∧ (s.runBinding r i f).pending = s.pending := by
  unfold State.runBinding
  refine ⟨?_, ?_, ?_, ?_, ?_, ?_⟩ <;>
    exact (foldl_keeps _ _ (fun _ _ => by simp) _ _).trans (foldl_keeps _ _ (fun _ _ => by simp) _ _)

@[simp] theorem State.runBindings_frame (s : State) (r : RoomNo) (f : PCtx → PWork → PWork) :
    (s.runBindings r f).powered = s.powered ∧ (s.runBindings r f).lines = s.lines ∧
    (s.runBindings r f).roster = s.roster ∧ (s.runBindings r f).tracks = s.tracks ∧
    (s.runBindings r f).arrays = s.arrays ∧ (s.runBindings r f).pending = s.pending := by
  unfold State.runBindings
  refine ⟨?_, ?_, ?_, ?_, ?_, ?_⟩ <;> exact foldl_keeps _ _ (fun _ _ => by simp) _ _

@[simp] theorem State.grantFetch_frame (s : State) (k : BankNo) (q : FetchReq) (n : Nat) :
    (s.grantFetch k q n).powered = s.powered ∧ (s.grantFetch k q n).evu = s.evu ∧
    (s.grantFetch k q n).lines = s.lines ∧ (s.grantFetch k q n).rooms = s.rooms ∧
    (s.grantFetch k q n).roster = s.roster ∧ (s.grantFetch k q n).tracks = s.tracks ∧
    (s.grantFetch k q n).arrays = s.arrays ∧ (s.grantFetch k q n).pending = s.pending := ⟨rfl, rfl, rfl, rfl, rfl, rfl, rfl, rfl⟩

@[simp] theorem State.grantWork_frame (s : State) (k : BankNo) (w : Rotation) (op : Op) :
    (s.grantWork k w op).powered = s.powered ∧ (s.grantWork k w op).evu = s.evu ∧
    (s.grantWork k w op).lines = s.lines ∧ (s.grantWork k w op).rooms = s.rooms ∧
    (s.grantWork k w op).roster = s.roster ∧ (s.grantWork k w op).tracks = s.tracks ∧
    (s.grantWork k w op).arrays = s.arrays ∧ (s.grantWork k w op).pending = s.pending := ⟨rfl, rfl, rfl, rfl, rfl, rfl, rfl, rfl⟩

@[simp] theorem State.arbitrate_frame (s : State) (k : BankNo) :
    (s.arbitrate k).powered = s.powered ∧ (s.arbitrate k).evu = s.evu ∧ (s.arbitrate k).lines = s.lines ∧
    (s.arbitrate k).rooms = s.rooms ∧ (s.arbitrate k).roster = s.roster ∧
    (s.arbitrate k).tracks = s.tracks ∧ (s.arbitrate k).arrays = s.arrays ∧
    (s.arbitrate k).pending = s.pending := by
  unfold State.arbitrate
  try dsimp only
  repeat' split
  all_goals simp

@[simp] theorem State.arbitrateBoth_frame (s : State) :
    (s.arbitrateBoth).powered = s.powered ∧ (s.arbitrateBoth).evu = s.evu ∧
    (s.arbitrateBoth).lines = s.lines ∧ (s.arbitrateBoth).rooms = s.rooms ∧
    (s.arbitrateBoth).roster = s.roster ∧ (s.arbitrateBoth).tracks = s.tracks ∧
    (s.arbitrateBoth).arrays = s.arrays ∧ (s.arbitrateBoth).pending = s.pending := by
  unfold State.arbitrateBoth
  try dsimp only
  repeat' split
  all_goals simp

@[simp] theorem State.haltBanks_frame (s : State) :
    (s.haltBanks).powered = s.powered ∧ (s.haltBanks).evu = s.evu ∧ (s.haltBanks).lines = s.lines ∧
    (s.haltBanks).rooms = s.rooms ∧ (s.haltBanks).roster = s.roster ∧ (s.haltBanks).tracks = s.tracks ∧
    (s.haltBanks).arrays = s.arrays ∧ (s.haltBanks).pending = s.pending := ⟨rfl, rfl, rfl, rfl, rfl, rfl, rfl, rfl⟩

@[simp] theorem State.quiesce_frame (s : State) :
    (s.quiesce).powered = s.powered ∧ (s.quiesce).evu = s.evu ∧ (s.quiesce).lines = s.lines ∧
    (s.quiesce).rooms = s.rooms ∧ (s.quiesce).roster = s.roster ∧ (s.quiesce).tracks = s.tracks ∧
    (s.quiesce).banks = s.banks ∧ (s.quiesce).arrays = s.arrays ∧ (s.quiesce).pending = s.pending := by
  unfold State.quiesce
  try dsimp only
  repeat' split
  all_goals simp

@[simp] theorem State.discardOutcome_frame (s : State) (k : BankNo) :
    (s.discardOutcome k).powered = s.powered ∧ (s.discardOutcome k).evu = s.evu ∧
    (s.discardOutcome k).lines = s.lines ∧ (s.discardOutcome k).rooms = s.rooms ∧
    (s.discardOutcome k).roster = s.roster ∧ (s.discardOutcome k).tracks = s.tracks ∧
    (s.discardOutcome k).arrays = s.arrays ∧ (s.discardOutcome k).pending = s.pending := by
  unfold State.discardOutcome
  try dsimp only
  repeat' split
  all_goals simp

@[simp] theorem State.repositionRoom_frame (s : State) (r : RoomNo) (pos : Nat) :
    (s.repositionRoom r pos).powered = s.powered ∧ (s.repositionRoom r pos).roster = s.roster ∧
    (s.repositionRoom r pos).tracks = s.tracks ∧ (s.repositionRoom r pos).arrays = s.arrays ∧
    (s.repositionRoom r pos).pending = s.pending := by
  unfold State.repositionRoom
  try dsimp only
  repeat' split
  all_goals simp

@[simp] theorem State.leaveDark_frame (before s : State) (r : RoomNo) :
    (before.leaveDark s r).powered = s.powered ∧ (before.leaveDark s r).roster = s.roster ∧
    (before.leaveDark s r).tracks = s.tracks ∧ (before.leaveDark s r).banks = s.banks ∧
    (before.leaveDark s r).arrays = s.arrays ∧ (before.leaveDark s r).pending = s.pending := by
  unfold State.leaveDark
  try dsimp only
  repeat' split
  all_goals simp

@[simp] theorem State.armRoom_frame (s : State) (r : RoomNo) (pos : Nat) (e : Option Nat) :
    (s.armRoom r pos e).powered = s.powered ∧ (s.armRoom r pos e).roster = s.roster ∧
    (s.armRoom r pos e).tracks = s.tracks ∧ (s.armRoom r pos e).arrays = s.arrays ∧
    (s.armRoom r pos e).pending = s.pending := by
  unfold State.armRoom
  try dsimp only
  repeat' split
  all_goals simp

@[simp] theorem State.seekRoom_frame (s : State) (r : RoomNo) (pos : Nat) :
    (s.seekRoom r pos).powered = s.powered ∧ (s.seekRoom r pos).roster = s.roster ∧
    (s.seekRoom r pos).tracks = s.tracks ∧ (s.seekRoom r pos).arrays = s.arrays ∧
    (s.seekRoom r pos).pending = s.pending := by
  unfold State.seekRoom
  try dsimp only
  repeat' split
  all_goals simp

@[simp] theorem State.modEntry_frame (s : State) (i : RosterIx) (f : RosterEntry → RosterEntry) :
    (s.modEntry i f).powered = s.powered ∧ (s.modEntry i f).evu = s.evu ∧
    (s.modEntry i f).lines = s.lines ∧ (s.modEntry i f).rooms = s.rooms ∧
    (s.modEntry i f).tracks = s.tracks ∧ (s.modEntry i f).banks = s.banks ∧
    (s.modEntry i f).arrays = s.arrays ∧ (s.modEntry i f).pending = s.pending := ⟨rfl, rfl, rfl, rfl, rfl, rfl, rfl, rfl⟩

@[simp] theorem State.cancelForward_frame (s : State) (i : RosterIx) :
    (s.cancelForward i).powered = s.powered ∧ (s.cancelForward i).evu = s.evu ∧
    (s.cancelForward i).lines = s.lines ∧ (s.cancelForward i).tracks = s.tracks ∧
    (s.cancelForward i).banks = s.banks ∧ (s.cancelForward i).arrays = s.arrays ∧
    (s.cancelForward i).pending = s.pending := by
  unfold State.cancelForward
  try dsimp only
  repeat' split
  all_goals simp

@[simp] theorem State.freeEntry_frame (s : State) (i : RosterIx) :
    (s.freeEntry i).powered = s.powered ∧ (s.freeEntry i).evu = s.evu ∧ (s.freeEntry i).lines = s.lines ∧
    (s.freeEntry i).tracks = s.tracks ∧ (s.freeEntry i).banks = s.banks ∧
    (s.freeEntry i).arrays = s.arrays ∧ (s.freeEntry i).pending = s.pending := by
  unfold State.freeEntry
  try dsimp only
  repeat' split
  all_goals simp

@[simp] theorem State.closePath_frame (s : State) (r : RoomNo) :
    (s.closePath r).powered = s.powered ∧ (s.closePath r).evu = s.evu ∧ (s.closePath r).lines = s.lines ∧
    (s.closePath r).tracks = s.tracks ∧ (s.closePath r).banks = s.banks ∧
    (s.closePath r).arrays = s.arrays ∧ (s.closePath r).pending = s.pending := by
  unfold State.closePath
  refine ⟨?_, ?_, ?_, ?_, ?_, ?_, ?_⟩ <;>
    exact (foldl_keeps _ _ (fun _ _ => by simp) _ _).trans (foldl_keeps _ _ (fun _ _ => by simp) _ _)

@[simp] theorem State.resetRoster_frame (s : State) (r : RoomNo) :
    (s.resetRoster r).powered = s.powered ∧ (s.resetRoster r).evu = s.evu ∧
    (s.resetRoster r).lines = s.lines ∧ (s.resetRoster r).tracks = s.tracks ∧
    (s.resetRoster r).banks = s.banks ∧ (s.resetRoster r).arrays = s.arrays ∧
    (s.resetRoster r).pending = s.pending := by
  unfold State.resetRoster
  refine ⟨?_, ?_, ?_, ?_, ?_, ?_, ?_⟩ <;>
    exact (foldl_keeps _ _ (fun _ _ => by simp) _ _).trans (foldl_keeps _ _ (fun _ _ => by simp) _ _)

@[simp] theorem State.reportMap_frame (s : State) (r : RoomNo) :
    (s.reportMap r).powered = s.powered ∧ (s.reportMap r).evu = s.evu ∧ (s.reportMap r).lines = s.lines ∧
    (s.reportMap r).tracks = s.tracks ∧ (s.reportMap r).banks = s.banks ∧
    (s.reportMap r).arrays = s.arrays ∧ (s.reportMap r).pending = s.pending := by
  unfold State.reportMap
  try dsimp only
  repeat' split
  all_goals simp

@[simp] theorem State.assignNew_frame (s : State) (i : RosterIx) (receiver : Nat) (p : Posting) :
    (s.assignNew i receiver p).powered = s.powered ∧ (s.assignNew i receiver p).evu = s.evu ∧
    (s.assignNew i receiver p).lines = s.lines ∧ (s.assignNew i receiver p).tracks = s.tracks ∧
    (s.assignNew i receiver p).banks = s.banks ∧ (s.assignNew i receiver p).arrays = s.arrays ∧
    (s.assignNew i receiver p).pending = s.pending := ⟨rfl, rfl, rfl, rfl, rfl, rfl, rfl⟩

@[simp] theorem State.assignUpdate_frame (s : State) (i : RosterIx) (p : Posting) :
    (s.assignUpdate i p).powered = s.powered ∧ (s.assignUpdate i p).evu = s.evu ∧
    (s.assignUpdate i p).lines = s.lines ∧ (s.assignUpdate i p).tracks = s.tracks ∧
    (s.assignUpdate i p).banks = s.banks ∧ (s.assignUpdate i p).arrays = s.arrays ∧
    (s.assignUpdate i p).pending = s.pending := ⟨rfl, rfl, rfl, rfl, rfl, rfl, rfl⟩

@[simp] theorem State.assignMove_frame (s : State) (i : RosterIx) (a : RoomNo) (p : Posting) :
    (s.assignMove i a p).powered = s.powered ∧ (s.assignMove i a p).evu = s.evu ∧
    (s.assignMove i a p).lines = s.lines ∧ (s.assignMove i a p).tracks = s.tracks ∧
    (s.assignMove i a p).banks = s.banks ∧ (s.assignMove i a p).arrays = s.arrays ∧
    (s.assignMove i a p).pending = s.pending := by
  unfold State.assignMove
  try dsimp only
  repeat' split
  all_goals simp

@[simp] theorem State.beginRelease_frame (s : State) (i : RosterIx) (r : RoomNo) :
    (s.beginRelease i r).powered = s.powered ∧ (s.beginRelease i r).evu = s.evu ∧
    (s.beginRelease i r).lines = s.lines ∧ (s.beginRelease i r).tracks = s.tracks ∧
    (s.beginRelease i r).banks = s.banks ∧ (s.beginRelease i r).arrays = s.arrays ∧
    (s.beginRelease i r).pending = s.pending := ⟨rfl, rfl, rfl, rfl, rfl, rfl, rfl⟩

@[simp] theorem State.spendRelease_frame (s : State) (i : RosterIx) (e : RosterEntry) :
    (s.spendRelease i e).powered = s.powered ∧ (s.spendRelease i e).evu = s.evu ∧
    (s.spendRelease i e).lines = s.lines ∧ (s.spendRelease i e).tracks = s.tracks ∧
    (s.spendRelease i e).banks = s.banks ∧ (s.spendRelease i e).arrays = s.arrays ∧
    (s.spendRelease i e).pending = s.pending := by
  unfold State.spendRelease
  try dsimp only
  repeat' split
  all_goals simp

@[simp] theorem State.spendForward_frame (s : State) (r : RoomNo) (i : RosterIx) (e : RosterEntry) :
    (s.spendForward r i e).powered = s.powered ∧ (s.spendForward r i e).evu = s.evu ∧
    (s.spendForward r i e).lines = s.lines ∧ (s.spendForward r i e).tracks = s.tracks ∧
    (s.spendForward r i e).banks = s.banks ∧ (s.spendForward r i e).arrays = s.arrays ∧
    (s.spendForward r i e).pending = s.pending := by
  unfold State.spendForward
  try dsimp only
  repeat' split
  all_goals simp

@[simp] theorem State.makeDirective_frame (s : State) (r : RoomNo) (i : RosterIx) :
    ((s.makeDirective r i).1).powered = s.powered ∧ ((s.makeDirective r i).1).evu = s.evu ∧
    ((s.makeDirective r i).1).lines = s.lines ∧ ((s.makeDirective r i).1).tracks = s.tracks ∧
    ((s.makeDirective r i).1).banks = s.banks ∧ ((s.makeDirective r i).1).arrays = s.arrays ∧
    ((s.makeDirective r i).1).pending = s.pending := by
  unfold State.makeDirective
  try dsimp only
  repeat' split
  all_goals simp

@[simp] theorem State.produceDirective_frame (s : State) (r : RoomNo) :
    ((s.produceDirective r).1).powered = s.powered ∧ ((s.produceDirective r).1).evu = s.evu ∧
    ((s.produceDirective r).1).lines = s.lines ∧ ((s.produceDirective r).1).tracks = s.tracks ∧
    ((s.produceDirective r).1).banks = s.banks ∧ ((s.produceDirective r).1).arrays = s.arrays ∧
    ((s.produceDirective r).1).pending = s.pending := by
  unfold State.produceDirective
  try dsimp only
  repeat' split
  all_goals simp

@[simp] theorem State.dropBind_frame (s : State) (t : TrackRef) :
    (s.dropBind t).powered = s.powered ∧ (s.dropBind t).evu = s.evu ∧ (s.dropBind t).lines = s.lines ∧
    (s.dropBind t).rooms = s.rooms ∧ (s.dropBind t).roster = s.roster ∧ (s.dropBind t).banks = s.banks ∧
    (s.dropBind t).arrays = s.arrays ∧ (s.dropBind t).pending = s.pending := by
  unfold State.dropBind
  try dsimp only
  repeat' split
  all_goals simp

@[simp] theorem State.darken_frame (s : State) (r : RoomNo) :
    (s.darken r).powered = s.powered ∧ (s.darken r).tracks = s.tracks ∧ (s.darken r).banks = s.banks ∧
    (s.darken r).arrays = s.arrays ∧ (s.darken r).pending = s.pending := by
  unfold State.darken
  try dsimp only
  repeat' split
  all_goals simp

@[simp] theorem State.resetRoom_frame (s : State) (r : RoomNo) :
    (s.resetRoom r).powered = s.powered ∧ (s.resetRoom r).banks = s.banks ∧
    (s.resetRoom r).arrays = s.arrays ∧ (s.resetRoom r).pending = s.pending := by
  unfold State.resetRoom
  simp only [State.clearRoomScope_frame, State.leaveLines_frame, State.resetRoster_frame, State.modRoom_powered,
    State.modRoom_banks, State.modRoom_arrays, State.modRoom_pending]
  refine ⟨?_, ?_, ?_, ?_⟩ <;> exact foldl_keeps _ _ (fun _ _ => by simp) _ _

@[simp] theorem State.setMap_frame (s : State) (r : RoomNo) (m : SlotMap) :
    (s.setMap r m).powered = s.powered ∧ (s.setMap r m).evu = s.evu ∧ (s.setMap r m).lines = s.lines ∧
    (s.setMap r m).tracks = s.tracks ∧ (s.setMap r m).banks = s.banks ∧ (s.setMap r m).arrays = s.arrays ∧
    (s.setMap r m).pending = s.pending := by
  unfold State.setMap
  try dsimp only
  repeat' split
  all_goals simp

@[simp] theorem State.bindTo_frame (s : State) (r : RoomNo) (i : BindNo) (t : BindTarget) :
    (s.bindTo r i t).powered = s.powered ∧ (s.bindTo r i t).roster = s.roster ∧
    (s.bindTo r i t).arrays = s.arrays ∧ (s.bindTo r i t).pending = s.pending := by
  unfold State.bindTo
  try dsimp only
  repeat' split
  all_goals simp

@[simp] theorem State.unbindAt_frame (s : State) (r : RoomNo) (i : BindNo) :
    (s.unbindAt r i).powered = s.powered ∧ (s.unbindAt r i).evu = s.evu ∧
    (s.unbindAt r i).roster = s.roster ∧ (s.unbindAt r i).banks = s.banks ∧
    (s.unbindAt r i).arrays = s.arrays ∧ (s.unbindAt r i).pending = s.pending := by
  unfold State.unbindAt
  try dsimp only
  repeat' split
  all_goals simp

@[simp] theorem State.judgeLow_frame (before s : State) (k : BankNo) :
    (before.judgeLow s k).powered = s.powered ∧ (before.judgeLow s k).lines = s.lines ∧
    (before.judgeLow s k).rooms = s.rooms ∧ (before.judgeLow s k).roster = s.roster ∧
    (before.judgeLow s k).tracks = s.tracks ∧ (before.judgeLow s k).banks = s.banks ∧
    (before.judgeLow s k).arrays = s.arrays ∧ (before.judgeLow s k).pending = s.pending := by
  unfold State.judgeLow
  try dsimp only
  repeat' split
  all_goals simp

@[simp] theorem State.releaseSegs_frame (s : State) (k : BankNo) (gs : List SegNo) :
    (s.releaseSegs k gs).powered = s.powered ∧ (s.releaseSegs k gs).evu = s.evu ∧
    (s.releaseSegs k gs).lines = s.lines ∧ (s.releaseSegs k gs).rooms = s.rooms ∧
    (s.releaseSegs k gs).roster = s.roster ∧ (s.releaseSegs k gs).tracks = s.tracks ∧
    (s.releaseSegs k gs).arrays = s.arrays ∧ (s.releaseSegs k gs).pending = s.pending := ⟨rfl, rfl, rfl, rfl, rfl, rfl, rfl, rfl⟩

@[simp] theorem State.takeSegment_frame (s : State) (t : Track) (data : List Byte) :
    (s.takeSegment t data).powered = s.powered ∧ (s.takeSegment t data).lines = s.lines ∧
    (s.takeSegment t data).rooms = s.rooms ∧ (s.takeSegment t data).roster = s.roster ∧
    (s.takeSegment t data).arrays = s.arrays ∧ (s.takeSegment t data).pending = s.pending := by
  unfold State.takeSegment
  try dsimp only
  repeat' split
  all_goals simp

@[simp] theorem State.fillBuffer_frame (s : State) (t : Track) (fresh : Bool) (data : List Byte) (close : Bool) :
    (s.fillBuffer t fresh data close).powered = s.powered ∧ (s.fillBuffer t fresh data close).evu = s.evu ∧
    (s.fillBuffer t fresh data close).lines = s.lines ∧ (s.fillBuffer t fresh data close).rooms = s.rooms ∧
    (s.fillBuffer t fresh data close).roster = s.roster ∧
    (s.fillBuffer t fresh data close).tracks = s.tracks ∧
    (s.fillBuffer t fresh data close).arrays = s.arrays ∧
    (s.fillBuffer t fresh data close).pending = s.pending := by
  unfold State.fillBuffer
  try dsimp only
  repeat' split
  all_goals simp

@[simp] theorem State.acceptWrite_frame (s : State) (t : Track) (data : List Byte) (p : ParserState) (close : Bool) :
    (s.acceptWrite t data p close).powered = s.powered ∧ (s.acceptWrite t data p close).lines = s.lines ∧
    (s.acceptWrite t data p close).rooms = s.rooms ∧ (s.acceptWrite t data p close).roster = s.roster ∧
    (s.acceptWrite t data p close).arrays = s.arrays ∧
    (s.acceptWrite t data p close).pending = s.pending := by
  unfold State.acceptWrite
  try dsimp only
  repeat' split
  all_goals simp

@[simp] theorem State.endDelete_frame (s : State) (id : Nat) :
    (s.endDelete id).powered = s.powered ∧ (s.endDelete id).evu = s.evu ∧
    (s.endDelete id).lines = s.lines ∧ (s.endDelete id).rooms = s.rooms ∧
    (s.endDelete id).roster = s.roster ∧ (s.endDelete id).banks = s.banks ∧
    (s.endDelete id).arrays = s.arrays ∧ (s.endDelete id).pending = s.pending := by
  unfold State.endDelete
  try dsimp only
  repeat' split
  all_goals simp

@[simp] theorem State.releaseTrack_frame (s : State) (t : Track) :
    (s.releaseTrack t).powered = s.powered ∧ (s.releaseTrack t).evu = s.evu ∧
    (s.releaseTrack t).lines = s.lines ∧ (s.releaseTrack t).rooms = s.rooms ∧
    (s.releaseTrack t).roster = s.roster ∧ (s.releaseTrack t).arrays = s.arrays ∧
    (s.releaseTrack t).pending = s.pending := by
  unfold State.releaseTrack
  try dsimp only
  repeat' split
  all_goals simp

@[simp] theorem State.beginDelete_frame (s : State) (t : Track) :
    (s.beginDelete t).powered = s.powered ∧ (s.beginDelete t).evu = s.evu ∧
    (s.beginDelete t).lines = s.lines ∧ (s.beginDelete t).rooms = s.rooms ∧
    (s.beginDelete t).roster = s.roster ∧ (s.beginDelete t).arrays = s.arrays ∧
    (s.beginDelete t).pending = s.pending := by
  unfold State.beginDelete
  try dsimp only
  repeat' split
  all_goals simp

@[simp] theorem State.decideSeal_frame (s : State) (id : Nat) :
    (s.decideSeal id).powered = s.powered ∧ (s.decideSeal id).evu = s.evu ∧
    (s.decideSeal id).lines = s.lines ∧ (s.decideSeal id).rooms = s.rooms ∧
    (s.decideSeal id).roster = s.roster ∧ (s.decideSeal id).banks = s.banks ∧
    (s.decideSeal id).arrays = s.arrays ∧ (s.decideSeal id).pending = s.pending := by
  unfold State.decideSeal
  try dsimp only
  repeat' split
  all_goals simp

@[simp] theorem State.settleWrite_frame (s : State) (lb : LoadBuf) (k : BankNo) :
    (s.settleWrite lb k).powered = s.powered ∧ (s.settleWrite lb k).evu = s.evu ∧
    (s.settleWrite lb k).lines = s.lines ∧ (s.settleWrite lb k).rooms = s.rooms ∧
    (s.settleWrite lb k).roster = s.roster ∧ (s.settleWrite lb k).banks = s.banks ∧
    (s.settleWrite lb k).arrays = s.arrays ∧ (s.settleWrite lb k).pending = s.pending := by
  unfold State.settleWrite
  try dsimp only
  repeat' split
  all_goals simp

@[simp] theorem State.failWrite_frame (s : State) (t : Track) (lb : LoadBuf) (k : BankNo) :
    (s.failWrite t lb k).powered = s.powered ∧ (s.failWrite t lb k).lines = s.lines ∧
    (s.failWrite t lb k).rooms = s.rooms ∧ (s.failWrite t lb k).roster = s.roster ∧
    (s.failWrite t lb k).arrays = s.arrays ∧ (s.failWrite t lb k).pending = s.pending := by
  unfold State.failWrite
  try dsimp only
  repeat' split
  all_goals simp

@[simp] theorem State.resumeDelete_frame (s : State) (t : Track) (g : SegNo) (pass : Bool) :
    (s.resumeDelete t g pass).powered = s.powered ∧ (s.resumeDelete t g pass).lines = s.lines ∧
    (s.resumeDelete t g pass).rooms = s.rooms ∧ (s.resumeDelete t g pass).roster = s.roster ∧
    (s.resumeDelete t g pass).arrays = s.arrays ∧ (s.resumeDelete t g pass).pending = s.pending := by
  unfold State.resumeDelete
  try dsimp only
  repeat' split
  all_goals simp

@[simp] theorem State.writeOutcome_frame (s : State) (k : BankNo) (lb : LoadBuf) (pass : Bool) :
    (s.writeOutcome k lb pass).powered = s.powered ∧ (s.writeOutcome k lb pass).lines = s.lines ∧
    (s.writeOutcome k lb pass).rooms = s.rooms ∧ (s.writeOutcome k lb pass).roster = s.roster ∧
    (s.writeOutcome k lb pass).arrays = s.arrays ∧ (s.writeOutcome k lb pass).pending = s.pending := by
  unfold State.writeOutcome
  try dsimp only
  repeat' split
  all_goals simp

@[simp] theorem State.pageWriteComplete_frame (s : State) (k : BankNo) (flaw : Option WriteFlaw) :
    (s.pageWriteComplete k flaw).powered = s.powered ∧ (s.pageWriteComplete k flaw).lines = s.lines ∧
    (s.pageWriteComplete k flaw).rooms = s.rooms ∧ (s.pageWriteComplete k flaw).roster = s.roster ∧
    (s.pageWriteComplete k flaw).pending = s.pending := by
  unfold State.pageWriteComplete
  try dsimp only
  repeat' split
  all_goals simp

@[simp] theorem State.abortMove_frame (s : State) (t : Track) (reason : Reason) (detail : Nat) :
    (s.abortMove t reason detail).powered = s.powered ∧ (s.abortMove t reason detail).evu = s.evu ∧
    (s.abortMove t reason detail).lines = s.lines ∧ (s.abortMove t reason detail).rooms = s.rooms ∧
    (s.abortMove t reason detail).roster = s.roster ∧ (s.abortMove t reason detail).arrays = s.arrays ∧
    (s.abortMove t reason detail).pending = s.pending := by
  unfold State.abortMove
  try dsimp only
  repeat' split
  all_goals simp

@[simp] theorem State.completeMove_frame (s : State) (t : Track) (m : MoveProgress) (p : ParserState) :
    (s.completeMove t m p).powered = s.powered ∧ (s.completeMove t m p).evu = s.evu ∧
    (s.completeMove t m p).lines = s.lines ∧ (s.completeMove t m p).rooms = s.rooms ∧
    (s.completeMove t m p).roster = s.roster ∧ (s.completeMove t m p).arrays = s.arrays ∧
    (s.completeMove t m p).pending = s.pending := by
  unfold State.completeMove
  try dsimp only
  repeat' split
  all_goals simp

@[simp] theorem State.placeStep_frame (s : State) (k : BankNo) (g : SegNo) :
    (s.placeStep k g).powered = s.powered ∧ (s.placeStep k g).evu = s.evu ∧
    (s.placeStep k g).lines = s.lines ∧ (s.placeStep k g).rooms = s.rooms ∧
    (s.placeStep k g).roster = s.roster ∧ (s.placeStep k g).tracks = s.tracks ∧
    (s.placeStep k g).arrays = s.arrays ∧ (s.placeStep k g).pending = s.pending := ⟨rfl, rfl, rfl, rfl, rfl, rfl, rfl, rfl⟩

@[simp] theorem State.needTarget_frame (s : State) (t : Track) (m : MoveProgress) :
    (s.needTarget t m).powered = s.powered ∧ (s.needTarget t m).evu = s.evu ∧
    (s.needTarget t m).lines = s.lines ∧ (s.needTarget t m).rooms = s.rooms ∧
    (s.needTarget t m).roster = s.roster ∧ (s.needTarget t m).arrays = s.arrays ∧
    (s.needTarget t m).pending = s.pending := by
  unfold State.needTarget
  try dsimp only
  repeat' split
  all_goals simp

@[simp] theorem State.recheckMove_frame (s : State) (k : BankNo) :
    (s.recheckMove k).powered = s.powered ∧ (s.recheckMove k).evu = s.evu ∧
    (s.recheckMove k).lines = s.lines ∧ (s.recheckMove k).rooms = s.rooms ∧
    (s.recheckMove k).roster = s.roster ∧ (s.recheckMove k).arrays = s.arrays ∧
    (s.recheckMove k).pending = s.pending := by
  unfold State.recheckMove
  try dsimp only
  repeat' split
  all_goals simp

@[simp] theorem State.beginMove_frame (s : State) (t : Track) (ps : List Patch) :
    (s.beginMove t ps).powered = s.powered ∧ (s.beginMove t ps).lines = s.lines ∧
    (s.beginMove t ps).rooms = s.rooms ∧ (s.beginMove t ps).roster = s.roster ∧
    (s.beginMove t ps).arrays = s.arrays ∧ (s.beginMove t ps).pending = s.pending := by
  unfold State.beginMove
  try dsimp only
  repeat' split
  all_goals simp

@[simp] theorem State.stepDone_frame (s : State) (t : Track) (m : MoveProgress) (g : SegNo) (p : ParserState) (data : List Byte) :
    (s.stepDone t m g p data).powered = s.powered ∧ (s.stepDone t m g p data).evu = s.evu ∧
    (s.stepDone t m g p data).lines = s.lines ∧ (s.stepDone t m g p data).rooms = s.rooms ∧
    (s.stepDone t m g p data).roster = s.roster ∧ (s.stepDone t m g p data).arrays = s.arrays ∧
    (s.stepDone t m g p data).pending = s.pending := by
  unfold State.stepDone
  try dsimp only
  repeat' split
  all_goals simp

@[simp] theorem State.stepWriteFail_frame (s : State) (k : BankNo) (t : Track) (m : MoveProgress) (g : SegNo) :
    (s.stepWriteFail k t m g).powered = s.powered ∧ (s.stepWriteFail k t m g).evu = s.evu ∧
    (s.stepWriteFail k t m g).lines = s.lines ∧ (s.stepWriteFail k t m g).rooms = s.rooms ∧
    (s.stepWriteFail k t m g).roster = s.roster ∧ (s.stepWriteFail k t m g).arrays = s.arrays ∧
    (s.stepWriteFail k t m g).pending = s.pending := by
  unfold State.stepWriteFail
  try dsimp only
  repeat' split
  all_goals simp

@[simp] theorem State.stepOutcome_frame (s : State) (k : BankNo) (t : Track) (m : MoveProgress) (g : SegNo) (plan : StepPlan) (pass : Bool) :
    (s.stepOutcome k t m g plan pass).powered = s.powered ∧ (s.stepOutcome k t m g plan pass).evu = s.evu ∧
    (s.stepOutcome k t m g plan pass).lines = s.lines ∧ (s.stepOutcome k t m g plan pass).rooms = s.rooms ∧
    (s.stepOutcome k t m g plan pass).roster = s.roster ∧
    (s.stepOutcome k t m g plan pass).arrays = s.arrays ∧
    (s.stepOutcome k t m g plan pass).pending = s.pending := by
  unfold State.stepOutcome
  try dsimp only
  repeat' split
  all_goals simp

@[simp] theorem State.moveStepComplete_frame (s : State) (k : BankNo) (seen : Option PageView) (flaw : Option WriteFlaw) :
    (s.moveStepComplete k seen flaw).powered = s.powered ∧
    (s.moveStepComplete k seen flaw).lines = s.lines ∧ (s.moveStepComplete k seen flaw).rooms = s.rooms ∧
    (s.moveStepComplete k seen flaw).roster = s.roster ∧
    (s.moveStepComplete k seen flaw).pending = s.pending := by
  unfold State.moveStepComplete
  try dsimp only
  repeat' split
  all_goals simp

@[simp] theorem State.reportClear_frame (s : State) (k : BankNo) (g : SegNo) :
    (s.reportClear k g).powered = s.powered ∧ (s.reportClear k g).evu = s.evu ∧
    (s.reportClear k g).lines = s.lines ∧ (s.reportClear k g).rooms = s.rooms ∧
    (s.reportClear k g).roster = s.roster ∧ (s.reportClear k g).banks = s.banks ∧
    (s.reportClear k g).arrays = s.arrays ∧ (s.reportClear k g).pending = s.pending := by
  unfold State.reportClear
  try dsimp only
  repeat' split
  all_goals simp

@[simp] theorem State.clearComplete_frame (s : State) (k : BankNo) (flaw : ClearFlaw) :
    (s.clearComplete k flaw).powered = s.powered ∧ (s.clearComplete k flaw).lines = s.lines ∧
    (s.clearComplete k flaw).rooms = s.rooms ∧ (s.clearComplete k flaw).roster = s.roster ∧
    (s.clearComplete k flaw).pending = s.pending := by
  unfold State.clearComplete
  try dsimp only
  repeat' split
  all_goals simp

/-- R7, R20, R23: a discarded fetch changes its queue and its segment's count, and no pool. -/
theorem Bank.discardFetch_frame (b : Bank) (q : FetchReq) :
    (b.discardFetch q).fetchQ = b.fetchQ.drop 1 ∧ (b.discardFetch q).free = b.free ∧
    (b.discardFetch q).clearQ = b.clearQ ∧ (b.discardFetch q).retired = b.retired ∧
    (b.discardFetch q).drain = b.drain ∧ (b.discardFetch q).op = b.op ∧ (b.discardFetch q).halted = b.halted ∧
    (b.discardFetch q).segs =
      b.segs.set q.seg { b.segs[q.seg] with refs := b.segs[q.seg].refs - 1 } :=
  ⟨rfl, rfl, rfl, rfl, rfl, rfl, rfl, rfl⟩

@[simp] theorem State.fetchComplete_frame (s : State) (k : BankNo) (seen : Option PageView) :
    (s.fetchComplete k seen).powered = s.powered ∧ (s.fetchComplete k seen).roster = s.roster ∧
    (s.fetchComplete k seen).tracks = s.tracks ∧ (s.fetchComplete k seen).arrays = s.arrays ∧
    (s.fetchComplete k seen).pending = s.pending := by
  unfold State.fetchComplete
  try dsimp only
  repeat' split
  all_goals simp

@[simp] theorem State.judgeMounted_frame (s : State) (k : BankNo) :
    (s.judgeMounted k).powered = s.powered ∧ (s.judgeMounted k).lines = s.lines ∧
    (s.judgeMounted k).rooms = s.rooms ∧ (s.judgeMounted k).roster = s.roster ∧
    (s.judgeMounted k).tracks = s.tracks ∧ (s.judgeMounted k).banks = s.banks ∧
    (s.judgeMounted k).arrays = s.arrays ∧ (s.judgeMounted k).pending = s.pending := by
  unfold State.judgeMounted
  try dsimp only
  repeat' split
  all_goals simp

@[simp] theorem State.mergeMounts_frame (s : State) :
    (s.mergeMounts).powered = s.powered ∧ (s.mergeMounts).lines = s.lines ∧
    (s.mergeMounts).rooms = s.rooms ∧ (s.mergeMounts).roster = s.roster ∧
    (s.mergeMounts).arrays = s.arrays ∧ (s.mergeMounts).pending = s.pending := by
  unfold State.mergeMounts
  try dsimp only
  repeat' split
  all_goals simp

@[simp] theorem State.mountStep_frame (s : State) (k : BankNo) (f : MountProgress → MountProgress) :
    (s.mountStep k f).powered = s.powered ∧ (s.mountStep k f).lines = s.lines ∧
    (s.mountStep k f).rooms = s.rooms ∧ (s.mountStep k f).roster = s.roster ∧
    (s.mountStep k f).arrays = s.arrays ∧ (s.mountStep k f).pending = s.pending := by
  unfold State.mountStep
  try dsimp only
  repeat' split
  all_goals simp

@[simp] theorem State.tagReadComplete_frame (s : State) (k : BankNo) (seen : Option (Option TagSlot)) :
    (s.tagReadComplete k seen).powered = s.powered ∧ (s.tagReadComplete k seen).lines = s.lines ∧
    (s.tagReadComplete k seen).rooms = s.rooms ∧ (s.tagReadComplete k seen).roster = s.roster ∧
    (s.tagReadComplete k seen).arrays = s.arrays ∧ (s.tagReadComplete k seen).pending = s.pending := by
  unfold State.tagReadComplete
  try dsimp only
  repeat' split
  all_goals simp

@[simp] theorem State.mountPageReadComplete_frame (s : State) (k : BankNo) (seen : Option PageView) :
    (s.mountPageReadComplete k seen).powered = s.powered ∧
    (s.mountPageReadComplete k seen).lines = s.lines ∧ (s.mountPageReadComplete k seen).rooms = s.rooms ∧
    (s.mountPageReadComplete k seen).roster = s.roster ∧
    (s.mountPageReadComplete k seen).arrays = s.arrays ∧
    (s.mountPageReadComplete k seen).pending = s.pending := by
  unfold State.mountPageReadComplete
  try dsimp only
  repeat' split
  all_goals simp

@[simp] theorem State.fragmentSlot_frame (s : State) (r : RoomNo) (i : BindNo) :
    ((s.fragmentSlot r i).1).powered = s.powered ∧ ((s.fragmentSlot r i).1).lines = s.lines ∧
    ((s.fragmentSlot r i).1).roster = s.roster ∧ ((s.fragmentSlot r i).1).tracks = s.tracks ∧
    ((s.fragmentSlot r i).1).banks = s.banks ∧ ((s.fragmentSlot r i).1).arrays = s.arrays ∧
    ((s.fragmentSlot r i).1).pending = s.pending := by
  unfold State.fragmentSlot
  refine ⟨?_, ?_, ?_, ?_, ?_, ?_, ?_⟩ <;> exact foldl_keeps _ _ (fun _ _ => by simp) _ _

@[simp] theorem State.bindingSlot_frame (s : State) (r : RoomNo) (i : BindNo) (n : Nat) :
    ((s.bindingSlot r i n).1).powered = s.powered ∧ ((s.bindingSlot r i n).1).lines = s.lines ∧
    ((s.bindingSlot r i n).1).roster = s.roster ∧ ((s.bindingSlot r i n).1).tracks = s.tracks ∧
    ((s.bindingSlot r i n).1).banks = s.banks ∧ ((s.bindingSlot r i n).1).arrays = s.arrays ∧
    ((s.bindingSlot r i n).1).pending = s.pending := by
  unfold State.bindingSlot
  try dsimp only
  repeat' split
  all_goals simp

@[simp] theorem State.directiveSlot_frame (s : State) (r : RoomNo) :
    ((s.directiveSlot r).1).powered = s.powered ∧ ((s.directiveSlot r).1).evu = s.evu ∧
    ((s.directiveSlot r).1).lines = s.lines ∧ ((s.directiveSlot r).1).tracks = s.tracks ∧
    ((s.directiveSlot r).1).banks = s.banks ∧ ((s.directiveSlot r).1).arrays = s.arrays ∧
    ((s.directiveSlot r).1).pending = s.pending := by
  unfold State.directiveSlot
  try dsimp only
  repeat' split
  all_goals simp

@[simp] theorem State.fillSlotOf_frame (s : State) (r : RoomNo) (d : List Carrier) (c : Carrier) :
    ((s.fillSlotOf r d c).1).powered = s.powered ∧ ((s.fillSlotOf r d c).1).lines = s.lines ∧
    ((s.fillSlotOf r d c).1).tracks = s.tracks ∧ ((s.fillSlotOf r d c).1).banks = s.banks ∧
    ((s.fillSlotOf r d c).1).arrays = s.arrays ∧ ((s.fillSlotOf r d c).1).pending = s.pending := by
  unfold State.fillSlotOf
  try dsimp only
  repeat' split
  all_goals simp

@[simp] theorem State.fillSlots_frame (s : State) (r : RoomNo) (d cs : List Carrier) :
    ((s.fillSlots r d cs).1).powered = s.powered ∧ ((s.fillSlots r d cs).1).lines = s.lines ∧
    ((s.fillSlots r d cs).1).tracks = s.tracks ∧ ((s.fillSlots r d cs).1).banks = s.banks ∧
    ((s.fillSlots r d cs).1).arrays = s.arrays ∧ ((s.fillSlots r d cs).1).pending = s.pending := by
  induction cs generalizing s d with
  | nil => simp [State.fillSlots]
  | cons c cs ih => simp [State.fillSlots, ih]

@[simp] theorem State.compose_frame (s : State) (r : RoomNo) :
    ((s.compose r).1).powered = s.powered ∧ ((s.compose r).1).lines = s.lines ∧
    ((s.compose r).1).tracks = s.tracks ∧ ((s.compose r).1).banks = s.banks ∧
    ((s.compose r).1).arrays = s.arrays ∧ ((s.compose r).1).pending = s.pending := by
  unfold State.compose
  try dsimp only
  repeat' split
  all_goals simp

@[simp] theorem State.mapStage_frame (s : State) (r : RoomNo) :
    (s.mapStage r).powered = s.powered ∧ (s.mapStage r).evu = s.evu ∧ (s.mapStage r).lines = s.lines ∧
    (s.mapStage r).tracks = s.tracks ∧ (s.mapStage r).banks = s.banks ∧ (s.mapStage r).arrays = s.arrays ∧
    (s.mapStage r).pending = s.pending := by
  unfold State.mapStage
  try dsimp only
  repeat' split
  all_goals simp

@[simp] theorem State.roundBoundary_frame (s : State) (r : RoomNo) :
    (s.roundBoundary r).powered = s.powered ∧ (s.roundBoundary r).tracks = s.tracks ∧
    (s.roundBoundary r).arrays = s.arrays ∧ (s.roundBoundary r).pending = s.pending := by
  unfold State.roundBoundary
  try dsimp only
  repeat' split
  all_goals simp

@[simp] theorem State.framePulse_frame (s : State) (r : RoomNo) :
    (s.framePulse r).powered = s.powered ∧ (s.framePulse r).roster = s.roster ∧
    (s.framePulse r).tracks = s.tracks ∧ (s.framePulse r).banks = s.banks ∧
    (s.framePulse r).arrays = s.arrays ∧ (s.framePulse r).pending = s.pending := by
  unfold State.framePulse
  try dsimp only
  repeat' split
  all_goals simp

@[simp] theorem State.runLineChange_frame (s : State) (r : RoomNo) (level : Bool) :
    (s.runLineChange r level).powered = s.powered ∧ (s.runLineChange r level).roster = s.roster ∧
    (s.runLineChange r level).tracks = s.tracks ∧ (s.runLineChange r level).banks = s.banks ∧
    (s.runLineChange r level).arrays = s.arrays ∧ (s.runLineChange r level).pending = s.pending := by
  unfold State.runLineChange
  try dsimp only
  repeat' split
  all_goals simp

@[simp] theorem State.abandon_frame (s : State) :
    (s.abandon).powered = s.powered ∧ (s.abandon).lines = s.lines ∧ (s.abandon).rooms = s.rooms ∧
    (s.abandon).roster = s.roster ∧ (s.abandon).tracks = s.tracks ∧ (s.abandon).banks = s.banks ∧
    (s.abandon).arrays = s.arrays ∧ (s.abandon).pending = s.pending := by
  unfold State.abandon
  try dsimp only
  repeat' split
  all_goals simp

@[simp] theorem State.collect_frame (s : State) (bytes : List Byte) :
    (s.collect bytes).powered = s.powered ∧ (s.collect bytes).evu = s.evu ∧
    (s.collect bytes).lines = s.lines ∧ (s.collect bytes).rooms = s.rooms ∧
    (s.collect bytes).roster = s.roster ∧ (s.collect bytes).tracks = s.tracks ∧
    (s.collect bytes).banks = s.banks ∧ (s.collect bytes).arrays = s.arrays ∧
    (s.collect bytes).pending = s.pending := ⟨rfl, rfl, rfl, rfl, rfl, rfl, rfl, rfl, rfl⟩

@[simp] theorem State.gapExpiry_frame (s : State) :
    (s.gapExpiry).powered = s.powered ∧ (s.gapExpiry).lines = s.lines ∧ (s.gapExpiry).rooms = s.rooms ∧
    (s.gapExpiry).roster = s.roster ∧ (s.gapExpiry).tracks = s.tracks ∧ (s.gapExpiry).banks = s.banks ∧
    (s.gapExpiry).arrays = s.arrays ∧ (s.gapExpiry).pending = s.pending := by
  unfold State.gapExpiry
  try dsimp only
  repeat' split
  all_goals simp

@[simp] theorem State.tickChain_frame (s : State) (r : RoomNo) :
    (s.tickChain r).powered = s.powered ∧ (s.tickChain r).roster = s.roster ∧
    (s.tickChain r).tracks = s.tracks ∧ (s.tickChain r).banks = s.banks ∧
    (s.tickChain r).arrays = s.arrays ∧ (s.tickChain r).pending = s.pending := by
  unfold State.tickChain
  try dsimp only
  repeat' split
  all_goals simp

@[simp] theorem State.tickSync_frame (s : State) (r : RoomNo) :
    (s.tickSync r).powered = s.powered ∧ (s.tickSync r).roster = s.roster ∧
    (s.tickSync r).tracks = s.tracks ∧ (s.tickSync r).banks = s.banks ∧ (s.tickSync r).arrays = s.arrays ∧
    (s.tickSync r).pending = s.pending := by
  unfold State.tickSync
  try dsimp only
  repeat' split
  all_goals simp

@[simp] theorem State.tickRound_frame (s : State) (r : RoomNo) :
    (s.tickRound r).powered = s.powered ∧ (s.tickRound r).tracks = s.tracks ∧
    (s.tickRound r).arrays = s.arrays ∧ (s.tickRound r).pending = s.pending := by
  unfold State.tickRound
  try dsimp only
  repeat' split
  all_goals simp

@[simp] theorem State.tickRoom_frame (s : State) (r : RoomNo) :
    (s.tickRoom r).powered = s.powered ∧ (s.tickRoom r).tracks = s.tracks ∧
    (s.tickRoom r).arrays = s.arrays ∧ (s.tickRoom r).pending = s.pending := by
  unfold State.tickRoom
  try dsimp only
  repeat' split
  all_goals simp

@[simp] theorem State.tickSend_frame (s : State) :
    (s.tickSend).powered = s.powered ∧ (s.tickSend).evu = s.evu ∧ (s.tickSend).lines = s.lines ∧
    (s.tickSend).rooms = s.rooms ∧ (s.tickSend).roster = s.roster ∧ (s.tickSend).tracks = s.tracks ∧
    (s.tickSend).banks = s.banks ∧ (s.tickSend).arrays = s.arrays ∧ (s.tickSend).pending = s.pending :=
  ⟨rfl, rfl, rfl, rfl, rfl, rfl, rfl, rfl, rfl⟩

@[simp] theorem State.tickGap_frame (s : State) :
    (s.tickGap).powered = s.powered ∧ (s.tickGap).lines = s.lines ∧ (s.tickGap).rooms = s.rooms ∧
    (s.tickGap).roster = s.roster ∧ (s.tickGap).tracks = s.tracks ∧ (s.tickGap).banks = s.banks ∧
    (s.tickGap).arrays = s.arrays ∧ (s.tickGap).pending = s.pending := by
  unfold State.tickGap
  try dsimp only
  repeat' split
  all_goals simp

@[simp] theorem State.tick_frame (s : State) :
    (s.tick).powered = s.powered ∧ (s.tick).tracks = s.tracks ∧ (s.tick).arrays = s.arrays ∧
    (s.tick).pending = s.pending := by
  unfold State.tick State.ifPowered
  split
  · simp only [State.tickGap_frame]
    refine ⟨?_, ?_, ?_, ?_⟩ <;> exact foldl_keeps _ _ (fun _ _ => by simp) _ _
  · simp

end Sys2Proof.Machine
end

