-- ==== Sys2Proof/Laws/Memory.lean ====
section
/-! SUPPORT. What the operations on a bank's array can do: each keeps the canonical form, and what a key reads as
after it. -/

namespace Sys2Proof.Machine

open Sys2Proof

/-! ### Keyed lists -/

theorem store_keys_above {α : Type} (m : KeyList α) (k : Nat) (v : α) (x : Nat) (hx : x < k)
    (h : ∀ c ∈ m, x < c.1) : ∀ c ∈ store m k v, x < c.1 := by
  induction m with
  | nil =>
    intro c hc
    rw [store, List.mem_singleton] at hc
    subst hc
    exact hx
  | cons a t ih =>
    obtain ⟨k', v'⟩ := a
    intro c hc
    have hh : x < k' := h (k', v') (by simp)
    have ht : ∀ c ∈ t, x < c.1 := fun c hc => h c (by simp [hc])
    rw [store] at hc
    split at hc
    · simp only [List.mem_cons] at hc
      rcases hc with rfl | rfl | hc
      · exact hx
      · exact hh
      · exact ht c hc
    · split at hc
      · simp only [List.mem_cons] at hc
        rcases hc with rfl | hc
        · exact hx
        · exact ht c hc
      · simp only [List.mem_cons] at hc
        rcases hc with rfl | hc
        · exact hh
        · exact ih ht c hc

/-- A stored value keeps the canonical form. -/
theorem store_wf {α : Type} (m : KeyList α) (k : Nat) (v : α) (h : Keys.wf m) : Keys.wf (store m k v) := by
  induction m with
  | nil => simp [store, Keys.wf]
  | cons a t ih =>
    obtain ⟨k', v'⟩ := a
    have h' := List.pairwise_cons.1 h
    rw [store]
    split
    · rename_i hlt
      refine List.pairwise_cons.2 ⟨?_, h⟩
      intro c hc
      rw [List.mem_cons] at hc
      rcases hc with rfl | hc
      · exact hlt
      · exact lt_trans hlt (h'.1 c hc)
    · split
      · rename_i heq
        subst heq
        exact List.pairwise_cons.2 ⟨fun c hc => h'.1 c hc, h'.2⟩
      · refine List.pairwise_cons.2 ⟨?_, ih h'.2⟩
        exact store_keys_above t k v k' (by omega) h'.1

/-- Removing keys keeps the canonical form. -/
theorem eraseWhere_wf {α : Type} (p : Nat → Bool) (m : KeyList α) (h : Keys.wf m) : Keys.wf (eraseWhere p m) :=
  List.Pairwise.filter _ h

/-- The key stored reads as the value stored, every other key as before. -/
theorem lookup_store {α : Type} (m : KeyList α) (k q : Nat) (v : α) (h : Keys.wf m) :
    lookup (store m k v) q = if q = k then some v else lookup m q := by
  induction m with
  | nil =>
    simp only [store, lookup]
    by_cases hq : k = q
    · simp [hq]
    · simp [hq, Ne.symm hq]
  | cons a t ih =>
    obtain ⟨k', v'⟩ := a
    have h' := List.pairwise_cons.1 h
    rw [store]
    split
    · simp only [lookup]
      by_cases hq : k = q
      · simp [hq]
      · simp [hq, Ne.symm hq]
    · split
      · rename_i heq
        subst heq
        simp only [lookup]
        by_cases hq : k = q
        · simp [hq]
        · simp [hq, Ne.symm hq]
      · rename_i hne
        simp only [lookup, ih h'.2]
        by_cases hq : k' = q
        · subst hq
          simp [Ne.symm hne]
        · simp [hq]

/-- A removed key reads as unlisted, every other key as before. -/
theorem lookup_eraseWhere {α : Type} (p : Nat → Bool) (m : KeyList α) (q : Nat) :
    lookup (eraseWhere p m) q = if p q then none else lookup m q := by
  induction m with
  | nil => simp [eraseWhere, lookup]
  | cons a t ih =>
    obtain ⟨k', v'⟩ := a
    have ih' : lookup (t.filter (fun c => !p c.1)) q = if p q then none else lookup t q := ih
    simp only [eraseWhere, List.filter_cons]
    by_cases hp : p k' = true
    · simp only [hp, Bool.not_true, Bool.false_eq_true, if_false, ih', lookup]
      by_cases hq : k' = q
      · subst hq
        simp [hp]
      · simp [hq]
    · simp only [Bool.not_eq_true] at hp
      simp only [hp, Bool.not_false, if_true, lookup, ih']
      by_cases hq : k' = q
      · subst hq
        simp [hp]
      · simp [hq]

/-! ### Array operations -/

theorem takeCells_wf (m : Memory) (k : Nat) (held : List (Option Byte)) (h : Keys.wf m) :
    Keys.wf (takeCells m k held) := by
  induction held generalizing m k with
  | nil => simpa [takeCells] using h
  | cons x t ih =>
    unfold takeCells
    split
    · exact ih _ _ (store_wf _ _ _ h)
    · exact ih _ _ h

/-- A write changes no cell outside its bytes. -/
theorem lookup_takeCells_outside (m : Memory) (k : Nat) (held : List (Option Byte)) (q : Nat) (h : Keys.wf m)
    (hq : q < k ∨ k + held.length ≤ q) : lookup (takeCells m k held) q = lookup m q := by
  induction held generalizing m k with
  | nil => simp [takeCells]
  | cons x t ih =>
    simp only [List.length_cons] at hq
    unfold takeCells
    split
    · rw [ih _ _ (store_wf _ _ _ h) (by omega), lookup_store _ _ _ _ h, if_neg (by omega)]
    · exact ih _ _ h (by omega)

/-- A written cell keeps its value through a write (R1). -/
theorem lookup_takeCells_written (m : Memory) (k : Nat) (held : List (Option Byte)) (q : Nat) (b : Byte)
    (h : Keys.wf m) (hq : lookup m q = some b) : lookup (takeCells m k held) q = some b := by
  induction held generalizing m k with
  | nil => simpa [takeCells] using hq
  | cons x t ih =>
    unfold takeCells
    split
    · rename_i hk
      refine ih _ _ (store_wf _ _ _ h) ?_
      rw [lookup_store _ _ _ _ h, if_neg ?_, hq]
      rintro rfl
      simp_all
    · exact ih _ _ h hq

theorem takeSlot_wf (m : KeyList TagSlot) (k : Nat) (t : Option TagSlot) (h : Keys.wf m) : Keys.wf (takeSlot m k t) := by
  unfold takeSlot
  split
  · exact h
  · split
    · exact store_wf _ _ _ h
    · exact h

theorem fateSlot_wf (m : KeyList TagSlot) (k : Nat) (f : SlotFate) (h : Keys.wf m) : Keys.wf (fateSlot m k f) := by
  unfold fateSlot
  split
  · exact h
  · exact eraseWhere_wf _ _ h
  · split
    · exact h
    · exact store_wf _ _ _ h

theorem BankArray.hold_wf (a : BankArray) (seg : SegNo) (page slot fillBefore : Nat) (hs : Option TagSlot)
    (hd : List (Option Byte)) (h : Memory.wf a) : Memory.wf (a.hold seg page slot fillBefore hs hd) :=
  ⟨takeCells_wf _ _ _ h.1, takeSlot_wf _ _ _ h.2⟩

theorem BankArray.write_wf (a : BankArray) (seg : SegNo) (page slot fillBefore : Nat) (tag : TagSlot)
    (data : List Byte) (flaw : Option WriteFlaw) (h : Memory.wf a) :
    Memory.wf (a.write seg page slot fillBefore tag data flaw).1 := by
  cases flaw <;> exact BankArray.hold_wf _ _ _ _ _ _ _ h

theorem foldl_store_wf {α β : Type} (key : β → Nat) (val : β → α) (l : List β) (m : KeyList α) (h : Keys.wf m) :
    Keys.wf (l.foldl (fun m c => store m (key c) (val c)) m) := by
  induction l generalizing m with
  | nil => exact h
  | cons c t ih => exact ih _ (store_wf _ _ _ h)

theorem BankArray.clear_wf (a : BankArray) (seg : SegNo) (flaw : ClearFlaw) (h : Memory.wf a) :
    Memory.wf (a.clear seg flaw).1 :=
  ⟨foldl_store_wf (fun c : Nat × Byte => cellKey seg 0 c.1) (fun c => c.2) _ _ (eraseWhere_wf _ _ h.1),
    foldl_store_wf (fun c : Nat × TagSlot => slotKey seg 0 c.1) (fun c => c.2) _ _ (eraseWhere_wf _ _ h.2)⟩

theorem BankArray.cutClear_wf (a : BankArray) (seg : SegNo) (n : Nat) (f0 f1 f2 f3 : SlotFate) (h : Memory.wf a) :
    Memory.wf (a.cutClear seg n f0 f1 f2 f3) := by
  unfold BankArray.cutClear
  dsimp only
  refine ⟨eraseWhere_wf (fun k => inSegCells seg k && decide (cellKey seg (max n 1) 0 ≤ k)) a.data h.1, ?_⟩
  exact fateSlot_wf _ _ _ (fateSlot_wf _ _ _ (fateSlot_wf _ _ _ (fateSlot_wf _ _ _ (eraseWhere_wf _ _ h.2))))

theorem BankArray.cutWrite_wf (a : BankArray) (seg : SegNo) (page slot fillBefore : Nat) (tag : TagSlot)
    (data : List Byte) (cut : ArrayCut) (h : Memory.wf a) :
    Memory.wf (a.cutWrite seg page slot fillBefore tag data cut) := by
  unfold BankArray.cutWrite
  split
  · exact BankArray.hold_wf _ _ _ _ _ _ _ h
  · dsimp only
    split
    · exact BankArray.hold_wf _ _ _ _ _ _ _ h
    · exact h
  · exact h

theorem stepArray_wf (a : BankArray) (t : Track) (m : MoveProgress) (target : SegNo) (pg : Nat) (plan : StepPlan)
    (flaw : Option WriteFlaw) (h : Memory.wf a) : Memory.wf (stepArray a t m target pg plan flaw).1 := by
  unfold stepArray
  split
  · exact BankArray.write_wf _ _ _ _ _ _ _ _ h
  · exact h

theorem State.cutArray_wf (s : State) (k : BankNo) (cut : ArrayCut) (h : Memory.wf s.arrays[k]) :
    Memory.wf (s.cutArray k cut) := by
  unfold State.cutArray
  split
  · exact BankArray.cutWrite_wf _ _ _ _ _ _ _ _ h
  · split
    · exact BankArray.cutClear_wf _ _ _ _ _ _ _ h
    · exact h
  · split
    · exact h
    · split
      · exact h
      · simp only []
        split
        · exact BankArray.cutWrite_wf _ _ _ _ _ _ _ _ h
        · exact h
  · exact h

theorem BankArray.blank_wf : Memory.wf BankArray.blank := by simp [BankArray.blank, Memory.wf, Keys.wf]

/-- The memory of the part after reset is in canonical form. -/
theorem reset_arrays_wf (k : BankNo) : Memory.wf (State.reset.arrays[k]) := by
  have : State.reset.arrays[k] = BankArray.blank := by
    simp [State.reset, State.powerOnValues]
  rw [this]
  exact BankArray.blank_wf

end Sys2Proof.Machine
end

