-- ==== Sys2Proof/Laws/Quiet.lean ====
section
/-! SUPPORT. The operations that touch the link at most by queueing notices (R181), and what an answered command then
leaves in the link. -/

namespace Sys2Proof.Machine

open Sys2Proof

theorem NoticesOnly.of_link {s t : State} (h : t.link = s.link) : NoticesOnly s t := ⟨[], by simp, by simp [h]⟩

theorem NoticesOnly.refl (s : State) : NoticesOnly s s := NoticesOnly.of_link rfl

theorem NoticesOnly.trans {s t u : State} (h : NoticesOnly s t) (h' : NoticesOnly t u) : NoticesOnly s u := by
  obtain ⟨a, ha, hs⟩ := h
  obtain ⟨b, hb, ht⟩ := h'
  refine ⟨a ++ b, ?_, by simp [ht, hs]⟩
  intro m hm
  rcases List.mem_append.1 hm with hm | hm
  · exact ha m hm
  · exact hb m hm

theorem NoticesOnly.foldl {γ : Type} (f : State → γ → State) (h : ∀ s c, NoticesOnly s (f s c)) (l : List γ)
    (s : State) : NoticesOnly s (l.foldl f s) := by
  induction l generalizing s with
  | nil => exact NoticesOnly.refl s
  | cons c t ih => exact (h s c).trans (ih _)

theorem State.raise_quiet (s : State) (e : EventId) : NoticesOnly s (s.raise e) := by
  obtain ⟨u, ns, h, hn, -⟩ := s.raise_spec e
  exact ⟨ns, hn, by rw [h]⟩

theorem State.raiseRoom_quiet (s : State) (r : RoomNo) (c : RoomClass) : NoticesOnly s (s.raiseRoom r c) :=
  s.raise_quiet _

theorem State.raiseDevice_quiet (s : State) (c : DeviceClass) : NoticesOnly s (s.raiseDevice c) := s.raise_quiet _

theorem State.modRoom_quiet (s : State) (r : RoomNo) (f : Room → Room) : NoticesOnly s (s.modRoom r f) :=
  NoticesOnly.of_link rfl

theorem State.modClock_quiet (s : State) (r : RoomNo) (f : Clock → Clock) : NoticesOnly s (s.modClock r f) :=
  NoticesOnly.of_link rfl

theorem State.modComp_quiet (s : State) (r : RoomNo) (f : Composer → Composer) : NoticesOnly s (s.modComp r f) :=
  NoticesOnly.of_link rfl

theorem State.mapBindings_quiet (s : State) (r : RoomNo) (f : Binding → Binding) : NoticesOnly s (s.mapBindings r f) :=
  NoticesOnly.of_link rfl

theorem State.modBinding_quiet (s : State) (r : RoomNo) (i : BindNo) (f : Binding → Binding) : NoticesOnly s (s.modBinding r i f) :=
  NoticesOnly.of_link rfl

theorem State.modBank_quiet (s : State) (k : BankNo) (f : Bank → Bank) : NoticesOnly s (s.modBank k f) :=
  NoticesOnly.of_link rfl

theorem State.modLine_quiet (s : State) (l : LineNo) (f : Line → Line) : NoticesOnly s (s.modLine l f) :=
  NoticesOnly.of_link rfl

theorem State.modTrack_quiet (s : State) (id : Nat) (f : Track → Track) : NoticesOnly s (s.modTrack id f) :=
  NoticesOnly.of_link rfl

theorem State.modEntry_quiet (s : State) (i : RosterIx) (f : RosterEntry → RosterEntry) : NoticesOnly s (s.modEntry i f) :=
  NoticesOnly.of_link rfl

theorem State.setEntry_quiet (s : State) (i : RosterIx) (e : Option RosterEntry) : NoticesOnly s (s.setEntry i e) :=
  NoticesOnly.of_link rfl

theorem State.refreshPin_quiet (s : State) (l : LineNo) : NoticesOnly s (s.refreshPin l) :=
  NoticesOnly.of_link rfl

theorem State.submitFetch_quiet (s : State) (k : BankNo) (q : FetchReq) : NoticesOnly s (s.submitFetch k q) :=
  NoticesOnly.of_link rfl

theorem State.clearLatch_quiet (s : State) (e : EventId) : NoticesOnly s (s.clearLatch e) :=
  NoticesOnly.of_link rfl

theorem State.grantFetch_quiet (s : State) (k : BankNo) (q : FetchReq) (n : Nat) : NoticesOnly s (s.grantFetch k q n) :=
  NoticesOnly.of_link rfl

theorem State.grantWork_quiet (s : State) (k : BankNo) (w : Rotation) (op : Op) : NoticesOnly s (s.grantWork k w op) :=
  NoticesOnly.of_link rfl

theorem State.refreshTally_quiet (s : State) (r : RoomNo) : NoticesOnly s (s.refreshTally r) := by
  unfold State.refreshTally
  try dsimp only
  repeat' split
  all_goals
    repeat' first
      | with_reducible exact NoticesOnly.refl _
      | with_reducible refine NoticesOnly.trans ?_ (State.refreshPin_quiet _ _)
      | with_reducible refine NoticesOnly.trans ?_ (State.raiseRoom_quiet _ _ _)

theorem State.judgeClaim_quiet (before s : State) (r : RoomNo) (f : LineFn) : NoticesOnly s (before.judgeClaim s r f) := by
  unfold State.judgeClaim
  try dsimp only
  repeat' split
  all_goals
    repeat' first
      | with_reducible exact NoticesOnly.refl _
      | with_reducible refine NoticesOnly.trans ?_ (State.raiseRoom_quiet _ _ _)

theorem State.judgeClaims_quiet (before s : State) (r : RoomNo) : NoticesOnly s (before.judgeClaims s r) := NoticesOnly.foldl _ (fun _ _ => State.judgeClaim_quiet _ _ _ _) _ _

theorem State.enterShow_quiet (s : State) (r : RoomNo) (f : Clock → Clock) : NoticesOnly s (s.enterShow r f) := by
  unfold State.enterShow
  try dsimp only
  repeat' split
  all_goals
    repeat' first
      | with_reducible exact NoticesOnly.refl _
      | with_reducible refine NoticesOnly.trans ?_ (State.modClock_quiet _ _ _)
      | with_reducible refine NoticesOnly.trans ?_ (State.raiseRoom_quiet _ _ _)

theorem State.addCause_quiet (s : State) (r : RoomNo) (f : Holds → Holds) : NoticesOnly s (s.addCause r f) := by
  unfold State.addCause
  try dsimp only
  repeat' split
  all_goals
    repeat' first
      | with_reducible exact NoticesOnly.refl _
      | with_reducible refine NoticesOnly.trans ?_ (State.modClock_quiet _ _ _)
      | with_reducible refine NoticesOnly.trans ?_ (State.raiseRoom_quiet _ _ _)
      | with_reducible refine NoticesOnly.trans ?_ (State.refreshTally_quiet _ _)
      | with_reducible refine NoticesOnly.trans ?_ (State.enterShow_quiet _ _ _)

theorem State.dropCause_quiet (s : State) (r : RoomNo) (f : Holds → Holds) : NoticesOnly s (s.dropCause r f) := by
  unfold State.dropCause
  try dsimp only
  repeat' split
  all_goals
    repeat' first
      | with_reducible exact NoticesOnly.refl _
      | with_reducible refine NoticesOnly.trans ?_ (State.modClock_quiet _ _ _)
      | with_reducible refine NoticesOnly.trans ?_ (State.raiseRoom_quiet _ _ _)
      | with_reducible refine NoticesOnly.trans ?_ (State.refreshTally_quiet _ _)
      | with_reducible refine NoticesOnly.trans ?_ (State.enterShow_quiet _ _ _)

theorem State.enterEnded_quiet (s : State) (r : RoomNo) : NoticesOnly s (s.enterEnded r) := by
  unfold State.enterEnded
  try dsimp only
  repeat' split
  all_goals
    repeat' first
      | with_reducible exact NoticesOnly.refl _
      | with_reducible refine NoticesOnly.trans ?_ (State.raiseRoom_quiet _ _ _)
      | with_reducible refine NoticesOnly.trans ?_ (State.refreshTally_quiet _ _)
      | with_reducible refine NoticesOnly.trans ?_ (State.enterShow_quiet _ _ _)
      | with_reducible refine NoticesOnly.trans ?_ (State.mapBindings_quiet _ _ _)
      | with_reducible refine NoticesOnly.trans ?_ (State.modClock_quiet _ _ _)

theorem State.countFrame_quiet (s : State) (r : RoomNo) : NoticesOnly s (s.countFrame r) := by
  unfold State.countFrame
  dsimp only
  split
  · exact (State.modClock_quiet _ _ _).trans (State.enterEnded_quiet _ _)
  · exact State.modClock_quiet _ _ _

theorem State.takePulse_quiet (s : State) (r : RoomNo) : NoticesOnly s (s.takePulse r) := by
  have run (x : State) (f : Clock → Clock) : NoticesOnly x (((x.enterShow r f).refreshTally r).countFrame r) :=
    ((State.enterShow_quiet _ _ _).trans (State.refreshTally_quiet _ _)).trans (State.countFrame_quiet _ _)
  unfold State.takePulse
  dsimp only
  split
  · split
    · exact run _ _
    · exact (State.modClock_quiet _ _ _).trans (State.countFrame_quiet _ _)
    · split
      · exact run _ _
      · exact NoticesOnly.refl _
    · exact NoticesOnly.refl _
    · exact NoticesOnly.refl _
  · exact NoticesOnly.refl _

theorem State.runEdge_quiet (s : State) (r : RoomNo) (level : Bool) : NoticesOnly s (s.runEdge r level) := by
  unfold State.runEdge
  try dsimp only
  repeat' split
  all_goals
    repeat' first
      | with_reducible exact NoticesOnly.refl _
      | with_reducible refine NoticesOnly.trans ?_ (State.addCause_quiet _ _ _)
      | with_reducible refine NoticesOnly.trans ?_ (State.dropCause_quiet _ _ _)

theorem State.syncExpiry_quiet (s : State) (r : RoomNo) : NoticesOnly s (s.syncExpiry r) := by
  unfold State.syncExpiry
  try dsimp only
  repeat' split
  all_goals
    repeat' first
      | with_reducible exact NoticesOnly.refl _
      | with_reducible refine NoticesOnly.trans ?_ (State.raiseRoom_quiet _ _ _)
      | with_reducible refine NoticesOnly.trans ?_ (State.addCause_quiet _ _ _)

theorem State.dividerExpiry_quiet (s : State) (r : RoomNo) : NoticesOnly s (s.dividerExpiry r) := by
  unfold State.dividerExpiry
  dsimp only
  split
  · exact (State.modClock_quiet _ _ _).trans (State.countFrame_quiet _ _)
  · exact State.modClock_quiet _ _ _

theorem State.prescalerExpiry_quiet (s : State) (r : RoomNo) (div : Nat) : NoticesOnly s (s.prescalerExpiry r div) := by
  unfold State.prescalerExpiry
  split
  · exact State.dividerExpiry_quiet _ _
  · exact State.modClock_quiet _ _ _

theorem State.runEdges_quiet (before s : State) : NoticesOnly s (before.runEdges s) := by
  unfold State.runEdges
  refine NoticesOnly.foldl _ (fun _ _ => ?_) _ _
  split
  · exact NoticesOnly.refl _
  · exact State.runEdge_quiet _ _ _

theorem State.pulseOn_quiet (before s : State) (l : LineNo) (x : State) : NoticesOnly x (before.pulseOn s l x) := by
  unfold State.pulseOn
  try dsimp only
  repeat' split
  all_goals
    repeat' first
      | with_reducible exact NoticesOnly.refl _
      | with_reducible refine NoticesOnly.trans ?_ (State.takePulse_quiet _ _)

theorem State.settle_quiet (before s : State) (ls : List LineNo) : NoticesOnly s (before.settle s ls) := by
  unfold State.settle
  refine NoticesOnly.trans ?_ (NoticesOnly.foldl _ (fun _ _ => State.pulseOn_quiet _ _ _ _) _ _)
  refine NoticesOnly.trans ?_ (State.runEdges_quiet _ _)
  exact NoticesOnly.foldl _ (fun _ _ => State.refreshPin_quiet _ _) _ _

theorem State.driveFrom_quiet (s : State) (l : LineNo) (drive : Option Bool) : NoticesOnly s (s.driveFrom l drive) := NoticesOnly.trans (State.modLine_quiet _ _ _) (State.settle_quiet _ _ _)

theorem State.joinLines_quiet (before s : State) (r : RoomNo) : NoticesOnly s (before.joinLines s r) := NoticesOnly.trans (State.judgeClaims_quiet _ _ _) (State.settle_quiet _ _ _)

theorem State.leaveLines_quiet (before s : State) (r : RoomNo) : NoticesOnly s (before.leaveLines s r) := State.settle_quiet _ _ _

theorem State.runBinding_quiet (s : State) (r : RoomNo) (i : BindNo) (f : PCtx → PWork → PWork) : NoticesOnly s (s.runBinding r i f) := by
  unfold State.runBinding
  refine NoticesOnly.trans ?_ (NoticesOnly.foldl _ (fun _ _ => State.raiseRoom_quiet _ _ _) _ _)
  refine NoticesOnly.trans ?_ (NoticesOnly.foldl _ (fun _ _ => State.submitFetch_quiet _ _ _) _ _)
  exact State.modRoom_quiet _ _ _

theorem State.runBindings_quiet (s : State) (r : RoomNo) (f : PCtx → PWork → PWork) : NoticesOnly s (s.runBindings r f) := NoticesOnly.foldl _ (fun _ _ => State.runBinding_quiet _ _ _ _) _ _

theorem State.arbitrate_quiet (s : State) (k : BankNo) : NoticesOnly s (s.arbitrate k) := by
  unfold State.arbitrate
  dsimp only
  split
  · exact NoticesOnly.refl _
  · split
    · exact State.modBank_quiet _ _ _
    · split
      · exact State.grantFetch_quiet _ _ _ _
      · split
        · exact State.grantFetch_quiet _ _ _ _
        · exact State.grantWork_quiet _ _ _ _
      · exact State.grantWork_quiet _ _ _ _
      · exact NoticesOnly.refl _

theorem State.arbitrateBoth_quiet (s : State) : NoticesOnly s (s.arbitrateBoth) := NoticesOnly.trans (State.arbitrate_quiet _ _) (State.arbitrate_quiet _ _)

theorem State.repositionRoom_quiet (s : State) (r : RoomNo) (pos : Nat) : NoticesOnly s (s.repositionRoom r pos) := by
  unfold State.repositionRoom
  exact ((State.runBindings_quiet _ _ _).trans (State.refreshTally_quiet _ _)).trans (State.arbitrateBoth_quiet _)

theorem State.leaveDark_quiet (before s : State) (r : RoomNo) : NoticesOnly s (before.leaveDark s r) := NoticesOnly.trans (State.joinLines_quiet _ _ _) (State.modComp_quiet _ _ _)

theorem State.armRoom_quiet (s : State) (r : RoomNo) (pos : Nat) (e : Option Nat) : NoticesOnly s (s.armRoom r pos e) := by
  unfold State.armRoom
  dsimp only
  split
  · exact ((State.enterShow_quiet _ _ _).trans (State.leaveDark_quiet _ _ _)).trans (State.repositionRoom_quiet _ _ _)
  · exact (State.enterShow_quiet _ _ _).trans (State.repositionRoom_quiet _ _ _)

theorem State.seekRoom_quiet (s : State) (r : RoomNo) (pos : Nat) : NoticesOnly s (s.seekRoom r pos) := by
  unfold State.seekRoom
  dsimp only
  split
  · exact ((State.modClock_quiet _ _ _).trans (State.enterShow_quiet _ _ _)).trans (State.repositionRoom_quiet _ _ _)
  · exact (State.modClock_quiet _ _ _).trans (State.repositionRoom_quiet _ _ _)

theorem State.cancelForward_quiet (s : State) (i : RosterIx) : NoticesOnly s (s.cancelForward i) := by
  unfold State.cancelForward
  try dsimp only
  repeat' split
  all_goals
    repeat' first
      | with_reducible exact NoticesOnly.refl _
      | with_reducible refine NoticesOnly.trans ?_ (State.modEntry_quiet _ _ _)
      | with_reducible refine NoticesOnly.trans ?_ (State.modRoom_quiet _ _ _)
    

theorem State.freeEntry_quiet (s : State) (i : RosterIx) : NoticesOnly s (s.freeEntry i) := by
  unfold State.freeEntry
  split
  · exact NoticesOnly.refl _
  · exact ((State.cancelForward_quiet _ _).trans (State.modRoom_quiet _ _ _)).trans (State.setEntry_quiet _ _ _)

theorem State.closePath_quiet (s : State) (r : RoomNo) : NoticesOnly s (s.closePath r) := by
  unfold State.closePath
  exact (NoticesOnly.foldl _ (fun _ _ => State.freeEntry_quiet _ _) _ _).trans
    (NoticesOnly.foldl _ (fun _ _ => State.cancelForward_quiet _ _) _ _)

theorem State.resetRoster_quiet (s : State) (r : RoomNo) : NoticesOnly s (s.resetRoster r) := by
  unfold State.resetRoster
  exact (NoticesOnly.foldl _ (fun _ _ => State.freeEntry_quiet _ _) _ _).trans
    (NoticesOnly.foldl _ (fun _ _ => State.cancelForward_quiet _ _) _ _)

theorem State.reportMap_quiet (s : State) (r : RoomNo) : NoticesOnly s (s.reportMap r) := by
  unfold State.reportMap
  try dsimp only
  repeat' split
  all_goals
    repeat' first
      | with_reducible exact NoticesOnly.refl _
      | with_reducible refine NoticesOnly.trans ?_ (State.closePath_quiet _ _)

theorem State.darken_quiet (s : State) (r : RoomNo) : NoticesOnly s (s.darken r) := by
  unfold State.darken
  refine NoticesOnly.trans ?_ (State.leaveLines_quiet _ _ _)
  refine NoticesOnly.trans ?_ (State.closePath_quiet _ _)
  exact ((State.enterShow_quiet _ _ _).trans (State.mapBindings_quiet _ _ _)).trans (State.modComp_quiet _ _ _)

theorem State.dropBind_quiet (s : State) (t : TrackRef) : NoticesOnly s (s.dropBind t) := by
  unfold State.dropBind
  try dsimp only
  repeat' split
  all_goals
    repeat' first
      | with_reducible exact NoticesOnly.refl _
      | with_reducible refine NoticesOnly.trans ?_ (State.modTrack_quiet _ _ _)
    

theorem State.clearRoomScope_quiet (s : State) (r : RoomNo) : NoticesOnly s (s.clearRoomScope r) := NoticesOnly.foldl _ (fun _ _ => State.clearLatch_quiet _ _) _ _

theorem State.resetRoom_quiet (s : State) (r : RoomNo) : NoticesOnly s (s.resetRoom r) := by
  unfold State.resetRoom
  refine NoticesOnly.trans ?_ (State.clearRoomScope_quiet _ _)
  refine NoticesOnly.trans ?_ (State.leaveLines_quiet _ _ _)
  refine NoticesOnly.trans ?_ (State.resetRoster_quiet _ _)
  refine NoticesOnly.trans ?_ (State.modRoom_quiet _ _ _)
  exact NoticesOnly.foldl _ (fun _ _ => State.dropBind_quiet _ _) _ _

theorem State.setMap_quiet (s : State) (r : RoomNo) (m : SlotMap) : NoticesOnly s (s.setMap r m) := by
  unfold State.setMap
  split
  · exact (State.modComp_quiet _ _ _).trans (State.reportMap_quiet _ _)
  · exact State.modComp_quiet _ _ _

theorem State.bindTo_quiet (s : State) (r : RoomNo) (i : BindNo) (t : BindTarget) : NoticesOnly s (s.bindTo r i t) := by
  unfold State.bindTo
  dsimp only
  refine NoticesOnly.trans ?_ (State.arbitrateBoth_quiet _)
  refine NoticesOnly.trans ?_ (State.refreshTally_quiet _ _)
  split
  · refine NoticesOnly.trans ?_ (State.runBinding_quiet _ _ _ _)
    split
    · exact (State.modBinding_quiet _ _ _ _).trans (State.modTrack_quiet _ _ _)
    · exact State.modBinding_quiet _ _ _ _
  · split
    · exact (State.modBinding_quiet _ _ _ _).trans (State.modTrack_quiet _ _ _)
    · exact State.modBinding_quiet _ _ _ _

theorem State.unbindAt_quiet (s : State) (r : RoomNo) (i : BindNo) : NoticesOnly s (s.unbindAt r i) := by
  unfold State.unbindAt
  refine NoticesOnly.trans ?_ (State.refreshTally_quiet _ _)
  exact ((State.dropBind_quiet _ _).trans (State.modBinding_quiet _ _ _ _)).trans (State.modRoom_quiet _ _ _)

theorem State.judgeLow_quiet (before s : State) (k : BankNo) : NoticesOnly s (before.judgeLow s k) := by
  unfold State.judgeLow
  try dsimp only
  repeat' split
  all_goals
    repeat' first
      | with_reducible exact NoticesOnly.refl _
      | with_reducible refine NoticesOnly.trans ?_ (State.raiseDevice_quiet _ _)

theorem State.takeSegment_quiet (s : State) (t : Track) (data : List Byte) : NoticesOnly s (s.takeSegment t data) := by
  unfold State.takeSegment
  split
  · exact NoticesOnly.refl _
  · exact ((State.modBank_quiet _ _ _).trans (State.modTrack_quiet _ _ _)).trans (State.judgeLow_quiet _ _ _)

theorem State.fillBuffer_quiet (s : State) (t : Track) (fresh : Bool) (data : List Byte) (close : Bool) : NoticesOnly s (s.fillBuffer t fresh data close) := by
  unfold State.fillBuffer
  split
  · exact NoticesOnly.refl _
  · exact State.modBank_quiet _ _ _

theorem State.acceptWrite_quiet (s : State) (t : Track) (data : List Byte) (p : ParserState) (close : Bool) : NoticesOnly s (s.acceptWrite t data p close) := by
  have hf : NoticesOnly s (if s.needsSegment t = true then s.takeSegment t data else s) := by
    split
    · exact State.takeSegment_quiet _ _ _
    · exact NoticesOnly.refl _
  unfold State.acceptWrite
  dsimp only
  split
  · exact hf
  · exact hf.trans ((State.fillBuffer_quiet _ _ _ _ _).trans (State.modTrack_quiet _ _ _))

/-! ### A command answered after its effect -/

/-- An effect that only queues notices, then DONE: the command has been taken and answered. -/
theorem answers_of_quiet (s t : State) (type : Nat) (tag : Byte) (body : List Byte) (h : s.ready)
    (hq : NoticesOnly (s.entered type tag) t) :
    Answers s (t.done (freePlace s.link.inbound) body) type tag body ∧
      sameReceiver s (t.done (freePlace s.link.inbound) body) := by
  obtain ⟨ns, hn, hl⟩ := hq
  have ha := Link.answer_enter s.link type tag true body h.2.2
  have hlink : (t.done (freePlace s.link.inbound) body).link =
      { s.link.replied type tag true body with
        outbound := s.link.outbound ++ ns ++ [.reply (freePlace s.link.inbound) tag true body] } := by
    have htag := Link.tagOf_enter s.link tag type h.2.2
    have hin := congrArg Link.inbound ha
    simp only [State.done, State.modLink, hl, State.entered]
    simp only [Link.answer, Link.replied] at hin ⊢
    simp only [Link.tagOf] at htag ⊢
    rw [hin, htag]
    simp [Link.enter]
  refine ⟨⟨?_, ns, hn, ?_⟩, ?_⟩
  · rw [hlink]
    rfl
  · rw [hlink]
  · simp [sameReceiver, hlink, Link.replied]

end Sys2Proof.Machine
end

