-- ==== Sys2Proof/Laws/Voice.lean ====
section
/-! SUPPORT. What a voice binding's reading does where it finds nothing new, and which page reckoning names (R109, R123). -/

namespace Sys2Proof.Machine

open Sys2Proof

/-- A request for the page that is already REQUESTED changes nothing (R82). -/
theorem requestPage_requested (ctx : PCtx) (page : TrackPage) (base b : Nat) (retry held : Bool) (w : PWork)
    (h : w.b.fetch = .requested page b retry held) : requestPage ctx page base w = w := by
  simp [requestPage, h]

/-- A page is kept ahead already (R84). -/
theorem keepAhead_requested (ctx : PCtx) (w : PWork) (h : w.b.fetch ≠ .empty) : keepAhead ctx w = w := by
  unfold keepAhead
  split
  · rename_i e; exact absurd e h
  · rfl

/-- The look-ahead finds nothing while the byte behind the current clip lies beyond the pages in hand (R109). -/
theorem lookAhead_beyond (ctx : PCtx) (w : PWork) (c : Clip) (sp : ServePage) (hc : w.b.clip = some c)
    (hs : w.b.serve = some sp) (hy : sp.base + sp.fill ≤ c.bodyEnd)
    (hf : ∀ page base fill data, w.b.fetch = .filled page base fill data → base + fill ≤ c.bodyEnd) :
    lookAhead ctx w = w := by
  unfold lookAhead
  rw [hc, hs]
  cases hn : w.b.nextClip with
  | none =>
    have out : sp.holds c.bodyEnd = false := by simp [ServePage.holds]; omega
    simp only [out, Bool.false_eq_true, if_false, Binding.fetchedPage]
    split
    · rename_i fp e
      split at e
      · rename_i page base fill data e'
        have := hf page base fill data e'
        cases e
        have : ServePage.holds ⟨page, base, 0, fill, data⟩ c.bodyEnd = false := by simp [ServePage.holds]; omega
        simp [this]
      · cases e
    · rfl
  | header => rfl
  | endMark => rfl

/-- With a next clip header or the end-of-track mark known, the look-ahead is over (R109). -/
theorem lookAhead_known (ctx : PCtx) (w : PWork) (h : w.b.nextClip ≠ .none) : lookAhead ctx w = w := by
  unfold lookAhead
  split
  · rename_i e _; exact absurd e h
  · rfl

/-- Reckoning past a page of `size` bytes at offset `base`, nothing being fetched: the page `j` further on in its segment
counts 2048 bytes for each page between (R123). -/
theorem reckonN_counts (ctx : PCtx) (x : Nat) (j n : Nat) (page : TrackPage) (base size : Nat) (hj : page.pg + j ≤ 63)
    (hl : ∀ m, m < j → ctx.isLast ⟨page.ord, page.pg + m⟩ = false) (hn : j < n)
    (at0 : j = 0 → x < base + size)
    (later : 0 < j → base + size + 2048 * (j - 1) ≤ x ∧ x < base + size + 2048 * j) :
    reckonN n ctx none x page base size =
      some (⟨page.ord, page.pg + j⟩, if j = 0 then base else base + size + 2048 * (j - 1)) := by
  induction j generalizing n page base size with
  | zero =>
    obtain ⟨m, rfl⟩ : ∃ m, n = m + 1 := ⟨n - 1, by omega⟩
    simp [reckonN, at0 rfl]
  | succ j ih =>
    obtain ⟨m, rfl⟩ : ∃ m, n = m + 1 := ⟨n - 1, by omega⟩
    have hx := later (by omega)
    have hlast : ctx.isLast page = false := by simpa using hl 0 (by omega)
    have hnext : page.next = ⟨page.ord, page.pg + 1⟩ := by simp [TrackPage.next]; omega
    unfold reckonN
    rw [if_neg (by omega)]
    simp only [hlast, Bool.false_eq_true, if_false, hnext, Config.pageBytes]
    have := ih m ⟨page.ord, page.pg + 1⟩ (base + size) 2048 (by simp; omega)
      (fun k hk => by have := hl (k + 1) (by omega); simpa [Nat.add_assoc, Nat.add_comm 1 k] using this) (by omega)
      (fun h => by subst h; omega) (fun h => by omega)
    rw [this]
    simp only [Nat.add_assoc, Nat.add_comm 1 j]
    rw [if_neg (show ¬ j + 1 = 0 by omega)]
    congr 2
    split <;> omega

end Sys2Proof.Machine
end

