-- ==== Sys2Proof/Tests/Slice0.lean ====
section
/-! SUPPORT. The model's own tests: terms that WellFormed refuses, values the spec prints, one step of a command here
and there, and, for every statement that has hypotheses, states and operands that meet them (test_meets_<statement>),
clause by clause. -/

set_option Elab.async false

namespace Sys2Proof.Tests

open Sys2Proof Sys2Proof.Machine

/-! ### WellFormed refuses what does not fit -/

def eng : Lang := ⟨0x45#8, 0x4E#8, 0x47#8⟩

def slotOf (fill : Nat) (segTag : Option SegTag) : TagSlot := ⟨1, fill, 0, segTag, 0⟩

theorem test_wellFormed_refuses_commands :
    ([.intactFrame 256 0 [], .intactFrame 1 0 (List.replicate 2081 0), .noticeSet 0 256 0, .eventsRead 0 256,
      .eventsClear 0 256 0, .lineSet 0 256 0 0 0, .lineSet 0 0 256 0 0, .lineSet 0 0 0 256 0, .lineSet 0 0 0 0 256,
      .roomSetup 0 256 0 0 0 0 0 0 0 0 0, .roomSetup 0 0 256 0 0 0 0 0 0 0 0, .roomSetup 0 0 0 256 0 0 0 0 0 0 0,
      .roomSetup 0 0 0 0 65536 0 0 0 0 0 0, .roomSetup 0 0 0 0 0 256 0 0 0 0 0, .roomSetup 0 0 0 0 0 0 256 0 0 0 0,
      .roomSetup 0 0 0 0 0 0 0 256 0 0 0, .roomSetup 0 0 0 0 0 0 0 0 256 0 0, .roomSetup 0 0 0 0 0 0 0 0 0 256 0,
      .roomSetup 0 0 0 0 0 0 0 0 0 0 256, .roomStatus 0 256, .roomReset 0 256, .roomDark 0 256, .arm 0 256 0 0 0,
      .arm 0 0 16777216 0 0, .arm 0 0 0 256 0, .arm 0 0 0 0 16777216, .go 0 256, .hold 0 256, .resume 0 256,
      .seek 0 256 0, .seek 0 0 16777216, .retrim 0 256 0, .retrim 0 0 65536, .endShow 0 256] : List Instr).all
      (fun i => !i.wellFormed) = true := by decide +kernel

theorem test_wellFormed_refuses_bodies :
    ([.slotMap 0 256 (List.replicate 39 (0, 0)), .slotMap 0 0 (List.replicate 38 (0, 0)),
      .slotMap 0 0 (List.replicate 39 (256, 0)), .slotMap 0 0 (List.replicate 39 (0, 256)), .bindTrack 0 256 0 0 eng,
      .bindTrack 0 0 256 0 eng, .bindTrack 0 0 0 65536 eng, .unbind 0 256 0, .unbind 0 0 256, .liveText 0 256 0 0 0 [],
      .liveText 0 0 256 0 0 [], .liveText 0 0 0 65536 0 [], .liveText 0 0 0 0 256 [],
      .liveText 0 0 0 0 0 (List.replicate 256 0), .trackCreate 0 65536 0 eng 0, .trackCreate 0 0 256 eng 0,
      .trackCreate 0 0 0 eng 256, .trackWrite 0 65536 0 [], .trackWrite 0 0 4294967296 [],
      .trackWrite 0 0 0 (List.replicate 2075 0), .trackSeal 0 65536 0, .trackSeal 0 0 4294967296, .trackMove 0 65536 [],
      .trackMove 0 0 [⟨4294967296, []⟩], .trackMove 0 0 [⟨0, List.replicate 256 0⟩],
      .trackMove 0 0 (List.replicate 256 ⟨0, []⟩), .trackMove 0 0 (List.replicate 9 ⟨0, List.replicate 250 0⟩),
      .trackDelete 0 65536, .trackInfo 0 65536, .assign 0 4294967296 0 0 0 0, .assign 0 0 256 0 0 0,
      .assign 0 0 0 256 0 0, .assign 0 0 0 0 256 0, .assign 0 0 0 0 0 256, .release 0 4294967296,
      .rosterRead 0 65536 0, .rosterRead 0 0 256] : List Instr).all (fun i => !i.wellFormed) = true := by
  decide +kernel

theorem test_wellFormed_refuses_outcomes :
    ([.fetchComplete 0 (some ⟨none, [0]⟩), .fetchComplete 0 (some ⟨some (4, slotOf 0 none), []⟩),
      .fetchComplete 0 (some ⟨some (0, slotOf 1 none), []⟩), .mountPageReadComplete 0 (some ⟨none, [0]⟩),
      .moveStepComplete 0 (some ⟨none, [0]⟩) none, .moveStepComplete 0 none (some ⟨some (slotOf 2049 none), []⟩),
      .tagReadComplete 0 (some (some (slotOf 2049 none))), .tagReadComplete 0 (some (some ⟨256, 0, 0, none, 0⟩)),
      .tagReadComplete 0 (some (some (slotOf 0 (some ⟨65536, 0, eng, 0, 0, 0⟩)))),
      .tagReadComplete 0 (some (some (slotOf 0 (some ⟨0, 256, eng, 0, 0, 0⟩)))),
      .tagReadComplete 0 (some (some (slotOf 0 (some ⟨0, 0, eng, 256, 0, 0⟩)))),
      .tagReadComplete 0 (some (some (slotOf 0 (some ⟨0, 0, eng, 0, 256, 0⟩)))),
      .tagReadComplete 0 (some (some (slotOf 0 (some ⟨0, 0, eng, 0, 0, 16777216⟩)))),
      .pageWriteComplete 0 (some ⟨none, List.replicate 2049 none⟩),
      .pageWriteComplete 0 (some ⟨some (slotOf 2049 none), []⟩), .clearComplete 0 ⟨[(131072, 0)], []⟩,
      .clearComplete 0 ⟨[], [(256, slotOf 0 none)]⟩, .clearComplete 0 ⟨[], [(0, slotOf 2049 none)]⟩,
      .powerFail (.dataCut 2048) .untouched, .powerFail .untouched (.clearCut 0 .blank .blank .blank .blank),
      .powerFail (.clearCut 65 .intact .intact .intact .intact) .untouched,
      .powerFail (.clearCut 2 .damaged .intact .intact .intact) .untouched] : List Instr).all
      (fun i => !i.wellFormed) = true := by decide +kernel

theorem test_wellFormed_accepts :
    ([.intactFrame 255 0 (List.replicate 2080 0), .arm 0 15 16777215 1 16777215, .trackMove 0 65535 [⟨0, [1]⟩],
      .clearComplete 1 ⟨[(131071, 0)], [(255, slotOf 2048 none)]⟩, .powerFail (.clearCut 1 .damaged .blank .intact .blank)
        (.dataCut 2047), .fetchComplete 0 (some ⟨some (3, slotOf 1 none), [7]⟩)] : List Instr).all Instr.wellFormed = true := by
  decide +kernel

/-! ### States to test on -/

/-- A bank that is mounted, its first free segments 5, 6 and 7. -/
def bank : Bank :=
  { Bank.initial with mount := none, op := none, free := [5, 6, 7], segs := Vector.replicate 2048 ⟨.free, 0, none⟩ }

/-- The part with its store mounted. -/
def up : State := { State.reset with banks := Vector.replicate 2 bank }

/-- The part with the clock of room 3 changed. -/
def at3 (f : Clock → Clock) : State := up.modClock 3 f

def shown (show_ : ShowState) : State := at3 (fun c => { c with show_ := show_ })

/-- Room 3 with binding 1 bound. -/
def bound (kind : BKind) (track : TrackRef) (s : State) : State :=
  s.modBinding 3 1 (fun b => { b with state := .playing, kind := some kind, track := track, lang := some eng })

def internal (show_ : ShowState) : State :=
  at3 (fun c => { c with show_ := show_, mode := .internal, rate := 25, p := some 2, nominal := some 1920, current := some 1920 })

def external (show_ : ShowState) (holds : Holds) : State :=
  at3 (fun c => { c with show_ := show_, holds := holds, frameLine := some 0, runLine := some 47, syncTimer := some 1 })

/-- Both lines of room 3 at a level. -/
def withPins (pin : Bool) (s : State) : State :=
  (s.modLine 47 (fun l => { l with pin := pin })).modLine 0 (fun l => { l with pin := false })

def entry : RosterEntry := ⟨77, false, 3, 0, 1, 0, 0, none, 0⟩

/-- The roster with one entry, at index 2. -/
def posted (e : RosterEntry) (s : State) : State :=
  (s.setEntry 2 (some e)).modRoom e.room (fun r => { r with rota := [2], cursor := some 2 })

/-- A LOADING text track on segment 5 of bank 0, one cue written. -/
def loading : Track :=
  { Track.create 9 .text eng 0 with
    segs := [⟨0, 5, 10⟩], writePos := some 17, settled := some 0, inFlight := 1
    running := some ⟨17, 0, 10, 20, 10, 1⟩, checkpoint := some ParserState.start }

/-- The same track sealed on its page 0. -/
def sealedTrack : Track :=
  { loading with
    state := .sealed, inFlight := 0, running := none, checkpoint := none, writePos := some 29, settled := some 29
    summary := some ⟨1, 20, 10, ⟨0, 0⟩⟩ }

def cueBytes : List Byte := [1#8, 0, 0, 0, 10, 0, 0, 0, 20, 0, 0, 5] ++ List.replicate 5 0x61#8

/-- Bank 0 with segment 5 owned, its cursor as given. -/
def withTrack (t : Track) (c : Option Cursor) (s : State) : State :=
  { s.modBank 0 (fun b => { b with free := [6, 7], segs := b.segs.set 5 ⟨.owned, 0, c⟩ }) with tracks := [t] }

def write0 : LoadBuf := ⟨9, 5, 0, 0, 0, 17, false, cueBytes, 0, some ⟨9, 1, eng, 0, 0, 10⟩⟩

def doing (op : Op) (s : State) : State := s.modBank 0 (fun b => { b with op := some op })

/-- An open command of a type on track 9. -/
def withOpen (type : Nat) (s : State) : State := s.modLink (fun l => { l with inbound := [⟨0, 1, type, 9, false⟩] })

/-! ### Values the spec prints, and small runs -/

theorem test_crc_of_123456789 :
    crc [0x31#8, 0x32#8, 0x33#8, 0x34#8, 0x35#8, 0x36#8, 0x37#8, 0x38#8, 0x39#8] = 0x29B1#16 := by decide +kernel

/-- The replies queued by a command, and the notices. -/
def said (i : Instr) (s : State) : List (Bool × List Byte) :=
  match exec i s with
  | .next t => t.link.outbound.map (fun m => match m with
    | .reply _ _ done body => (done, body)
    | .notice _ count => (true, u8 count))
  | _ => []

def after (i : Instr) (s : State) : State :=
  match exec i s with
  | .next t => t
  | _ => s

/-- R54: 96000 / (24 x 2) is 2000. -/
theorem test_room_setup_reports_the_divider :
    said (.roomSetup 1 3 1 24 2 255 255 255 255 4 50) up = [(true, [1#8, 0x07#8, 0xD0#8])] := by decide +kernel

/-- R174: the reason codes of R188, with their details. -/
theorem test_refusals :
    said (.trackDelete 1 9) up = [(false, [7#8, 0, 0, 0, 0])] ∧
    said (.slotMap 1 0 (List.replicate 38 (0, 0) ++ [(0, 7)])) up = [(false, [3#8, 0, 0, 0, 39])] ∧
    said (.storeInfo 1) State.reset = [(false, [12#8, 0, 0, 0, 0])] := by decide +kernel

/-- R29, R30: a write is placed, and its landing, settled offset and room left are reported. -/
theorem test_track_write :
    said (.trackWrite 1 9 0 cueBytes) (withTrack { loading with segs := [], writePos := some 0, running := some ParserState.start, inFlight := 0 } none up) =
      [(true, u32 0 ++ u32 0 ++ u16 2031)] := by decide +kernel

/-- R8: the write is then in the array, and the next read of the page is OK with its bytes (R7). -/
theorem test_page_write_then_read :
    judgePage (((after (.pageWriteComplete 0 none) (doing (.pageWrite write0) (withTrack loading none up))).arrays[(0 : BankNo)]).view 5 0) =
      some (17, cueBytes) := by decide +kernel

/-- R153: a receiver of a DARK room is freed at once. -/
theorem test_release_in_a_dark_room :
    said (.release 1 77) (posted entry up) = [(true, [0#8, 2, 4])] ∧
    (after (.release 1 77) (posted entry up)).roster[(2 : RosterIx)] = none := by decide +kernel

/-- R183, R184: the notices are off after power-on, and a raise is then counted without one. -/
theorem test_line_raise_without_notice :
    said .gapTimerExpiry (up.modLink (fun l => { l with gap := some 1 })) = [] ∧
    said (.eventsRead 1 16) (up.raiseDevice .linkError) =
      [(true, [1#8, 1, 0, 0, 0, 0, 0, 0, 0, 0, 0, 0, 0, 0, 0, 0, 0x1F, 0xFF])] := by decide +kernel

/-! ### The statements' hypotheses are met -/

theorem test_meets_StepRunsTheFrontCommand :
    ({ up with pending := [.ident 1, .lineRead 2] } : State).pending = .ident 1 :: [.lineRead 2] := rfl

theorem test_meets_EmptyQueuePassesOneBaseTick :
    up.pending = [] ∧ ({ up with powered := false } : State).powered = false ∧ up.powered = true ∧ up.link.gap = none ∧
      up.link.outbound = [] ∧ (up.done 0 []).link.outbound ≠ [] ∧
      (up.modLink (fun l => { l with gap := some 192 })).link.gap = some 192 ∧
      (up.modLink (fun l => { l with gap := some 1 })).link.gap = some 1 ∧
      (∀ r : RoomNo, (up.clock r).syncTimer = none ∧ (up.rooms[r]).comp.roundTimer = none ∧
        (up.clock r).chain = .stopped) ∧
      ((at3 (fun c => { c with chain := .running 2 1 })).clock 3).chain = .running 2 1 ∧
      ((at3 (fun c => { c with chain := .running 1 2 })).clock 3).chain = .running 1 2 ∧
      ((at3 (fun c => { c with chain := .running 1 1 })).clock 3).chain = .running 1 1 ∧
      ((at3 (fun c => { c with syncTimer := some 2 })).clock 3).syncTimer = some 2 ∧
      ((at3 (fun c => { c with syncTimer := some 1 })).clock 3).syncTimer = some 1 ∧
      ((up.modComp 3 (fun c => { c with roundTimer := some 1920 })).rooms[(3 : RoomNo)]).comp.roundTimer = some 1920 ∧
      ((up.modComp 3 (fun c => { c with roundTimer := some 1 })).rooms[(3 : RoomNo)]).comp.roundTimer = some 1 := by
  decide +kernel

theorem test_meets_FrameBodiesAreReadAsLaidOut :
    (Instr.arm 7 15 16777215 1 2).wellFormed = true ∧
      wire? (.arm 7 15 16777215 1 2) = some (0x14, 7, [15#8, 255, 255, 255, 1, 0, 0, 2]) ∧
      (Instr.trackMove 7 65535 [⟨4294967295, [9]⟩]).wellFormed = true ∧
      wire? (.trackMove 7 65535 [⟨4294967295, [9]⟩]) = some (0x33, 7, [255#8, 255, 1, 255, 255, 255, 255, 1, 9]) := by
  decide +kernel

theorem test_meets_BytesOfAFrameReachTheInboundQueue :
    255 < 256 ∧ (List.replicate 2080 (0 : Byte)).length ≤ Config.largestBody ∧ up.powered = true ∧
      up.link.receiver = .hunt := by decide +kernel

/-! The invariants hold of a mounted part, and a step of it answers a next state. -/

theorem up_directorySound : up.directorySound := by
  refine ⟨List.Pairwise.nil, by decide +kernel, fun k m h => ?_⟩
  have gone : ∀ k : BankNo, (up.banks[k]).mount = none := by decide +kernel
  rw [gone k] at h
  exact absurd h (by simp)

theorem test_meets_EveryStepKeepsArraysAndDirectorySound :
    (up.arraysSound ∧ up.directorySound) ∧ ∃ t, step up = .next t :=
  ⟨⟨fun k => reset_arrays_wf k, up_directorySound⟩, _, rfl⟩

theorem test_meets_EveryStepKeepsTheRoomsSound :
    (up.clocksCoherent ∧ up.positionsSound ∧ up.roundsSound) ∧ ∃ t, step up = .next t := by
  refine ⟨?_, _, rfl⟩
  have dark : ∀ r : RoomNo, (up.rooms[r]).clock = Clock.initial r.val ∧ (up.rooms[r]).comp = Composer.initial := by
    decide +kernel
  refine ⟨fun r => ?_, fun r => ?_, fun r => ?_⟩
  · show (up.rooms[r]).clock.coherent
    rw [(dark r).1]
    simp [Clock.coherent, Clock.initial, Clock.started]
  · show (up.rooms[r]).clock.withinShow
    rw [(dark r).1]
    simp [Clock.withinShow, Clock.initial, Clock.inService, Clock.started]
  · unfold Room.roundsSound
    rw [(dark r).1, (dark r).2]
    simp [Clock.initial, Composer.initial]

theorem test_meets_EveryStepKeepsEventsAndTheLinkSound :
    (up.eventsSound ∧ up.link.sound) ∧ ∃ t, step up = .next t := by
  refine ⟨⟨⟨fun e => ?_, ?_, fun e h => ?_⟩, ?_⟩, _, rfl⟩
  · have clear : up.evu.latch e = Latch.clear := by
      cases e with
      | room r c => revert r; cases c <;> decide +kernel
      | device c => cases c <;> decide +kernel
    simp [Latch.sound, clear, Latch.clear]
  · decide +kernel
  · simp [up, State.reset, State.powerOnValues, EventUnit.initial] at h
  · simp [Machine.Link.sound, up, State.reset, State.powerOnValues, Machine.Link.initial, Machine.Link.notices]

/-- A mounted bank with every segment free. -/
def freshBank : Bank :=
  { Bank.initial with
    mount := none, op := none, free := List.finRange 2048, segs := Vector.replicate 2048 ⟨.free, 0, none⟩ }

/-- The part with its store mounted and empty. -/
def fresh : State := { State.reset with banks := Vector.replicate 2 freshBank }

theorem fresh_bank (k : BankNo) : fresh.banks[k] = freshBank := by simp [fresh]

theorem fresh_seg (g : SegNo) : freshBank.segs[g] = ⟨.free, 0, none⟩ := by simp [freshBank]

theorem fresh_binding (r : RoomNo) (i : BindNo) : fresh.binding r i = Binding.initial := by
  revert r i; decide +kernel

theorem fresh_free : freshBank.poolIs .free freshBank.free := by
  refine ⟨?_, fun g => ?_⟩
  · simp only [freshBank]; exact List.nodup_finRange 2048
  · rw [fresh_seg]; simp [freshBank]

theorem fresh_storeSound : fresh.storeSound := by
  have other (p : Pool) (h : p ≠ .free) : freshBank.poolIs p [] :=
    ⟨List.nodup_nil, fun g => by rw [fresh_seg]; simpa using h.symm⟩
  refine ⟨fun k => ?_, ?_, fun k => ?_, ?_⟩
  · simp only [fresh_bank, State.targetSegs]
    refine ⟨fresh_free, other _ (by decide), other _ (by decide), other _ (by decide),
      other _ (by decide), other _ (by decide), fun _ _ g => ?_, fun h => absurd rfl h⟩
    rw [fresh_seg]; decide
  · exact ⟨List.Pairwise.nil, List.Pairwise.nil, fun t h => absurd h (by simp [fresh, State.reset, State.powerOnValues])⟩
  · simp only [fresh_bank]
    exact ⟨by simp [freshBank], by simp [freshBank, Bank.initial], by simp [freshBank], by simp [freshBank],
      fun _ t h => absurd h (by simp [fresh, State.reset, State.powerOnValues])⟩
  · exact ⟨by simp [fresh], fun _ => rfl, fun k m h => by rw [fresh_bank] at h; simp [freshBank] at h⟩

theorem fresh_workGranted : fresh.workGranted := by
  intro _ k
  simp only [fresh_bank]
  intro _ _
  exact ⟨rfl, by revert k; decide +kernel⟩

theorem test_meets_EveryStepKeepsTheStoreSound : fresh.storeSound ∧ ∃ t, step fresh = .next t :=
  ⟨fresh_storeSound, _, rfl⟩

theorem test_meets_EveryStepKeepsTheFetchesSound :
    (fresh.storeSound ∧ fresh.fetchesSound ∧ fresh.bindsSound) ∧ ∃ t, step fresh = .next t := by
  refine ⟨⟨fresh_storeSound, ⟨fun k => ?_, fun r i => ?_⟩, fun r i => ?_, ?_⟩, _, rfl⟩
  · simp only [fresh_bank, fresh_seg]
    exact ⟨by decide, by simp [freshBank], fun h => absurd rfl h, fun g => rfl⟩
  · rw [fresh_binding]
    exact ⟨.inl rfl, by simp [Binding.initial]⟩
  · rw [fresh_binding]
    simp [Binding.initial]
  · intro t h
    simp [fresh, State.reset, State.powerOnValues] at h

/-- Room 3 with a cue in the window of binding 1, its SHOW in the prompt queue, and a page and a block in hand. -/
def feeding : State :=
  (up.modBinding 3 1 (fun b =>
    { b with
      state := .playing, kind := some .text, track := .stored 9, loaded := true
      window := [⟨1, .frames 5 9, 0, [0x61], none⟩]
      prompt := [⟨.show_ 1 0 [0x61], 0⟩]
      serve := some ⟨⟨0, 0⟩, 0, 1, 1, [0]⟩, block := some (List.replicate 32 7) })).modRoom 3
    (fun room => { room with ring := [⟨0, 1, [0x61], 3000, true⟩] })

theorem test_meets_EveryStepKeepsTheBindingsSound : feeding.bindingsSound ∧ ∃ t, step feeding = .next t := by
  refine ⟨fun r => ⟨?_, fun i => ?_⟩, _, rfl⟩
  · unfold Room.ringSound; revert r; decide +kernel
  · have cases : feeding.binding r i = Binding.initial ∨ feeding.binding r i = feeding.binding 3 1 := by
      revert r i; decide +kernel
    have here : feeding.binding 3 1 = { Binding.initial with
        state := .playing, kind := some .text, track := .stored 9, loaded := true
        window := [⟨1, .frames 5 9, 0, [0x61], none⟩]
        prompt := [⟨.show_ 1 0 [0x61], 0⟩]
        serve := some ⟨⟨0, 0⟩, 0, 1, 1, [0]⟩, block := some (List.replicate 32 7) } := by decide +kernel
    rcases cases with h | h
    · rw [h]
      simp [Binding.feedsSound, Binding.listsSound, Binding.pagesSound, Binding.initial]
    · rw [h, here]
      simp [Binding.feedsSound, Binding.listsSound, Binding.pagesSound, Binding.initial, Config.promptPlaces,
        Config.windowPlaces, WinCue.ofKind, MsgBody.fragments, MsgBody.bytes, u16, u8, beBytes]

def fetch3 : FetchReq := ⟨3, 1, 0, 5, 0⟩

/-- A move of the track's page 0 in bank 0, with its target held or not. -/
def movingUp (targets : List SegElem) : State :=
  withTrack { sealedTrack with state := .moving, move := some ⟨[], ⟨0, 0⟩, 0, targets, ParserState.start⟩ } none up

/-- BanksGrantInTurn: a busy bank, a mounting one, and an idle one with each of its choices. -/
theorem test_meets_BanksGrantInTurn :
    ((doing (.clear 5) up).banks[(0 : BankNo)]).op ≠ none ∧ (up.haltBanks.banks[(0 : BankNo)]).halted = true ∧
      (let b := ({ State.reset with banks := Vector.replicate 2 { Bank.initial with op := none } } : State).banks[(0 : BankNo)]
       b.op = none ∧ b.halted = false ∧ b.mount = some MountProgress.start) ∧
      (∀ x ∈ [([fetch3], ([] : List SegNo), 0), ([fetch3], [8], 7), ([fetch3], [8], 8), ([], [8], 0), ([], [], 0)],
        let s := up.modBank 0 (fun b => { b with fetchQ := x.1, clearQ := x.2.1, runCount := x.2.2, rotation := .move })
        let b := s.banks[(0 : BankNo)]
        b.op = none ∧ b.halted = false ∧ b.mount = none ∧ b.loadBuf = none ∧ s.readyMove? 0 = none ∧
          (b.clearQ.head?.map Op.clear).isSome = !x.2.1.isEmpty) ∧
      (((movingUp [⟨0, 6, 0⟩]).movingTrack? 0).isSome = true ∧ segOf? ([⟨0, 6, 0⟩] : List SegElem) 0 = some 6 ∧
        ((movingUp []).movingTrack? 0).isSome = true ∧ segOf? [] 0 = none) := by decide +kernel

theorem test_meets_BanksGrantInTurn_granted : fresh.storeSound ∧ fresh.workGranted ∧ ∃ t, step fresh = .next t :=
  ⟨fresh_storeSound, fresh_workGranted, _, rfl⟩

theorem test_meets_EveryStepKeepsTheRosterSound :
    (up.rotasSound ∧ up.receiversSound) ∧ ∃ t, step up = .next t := by
  refine ⟨?_, _, rfl⟩
  have free : ∀ i : RosterIx, up.roster[i] = none := by simp [up, State.reset, State.powerOnValues]
  have empty : ∀ r : RoomNo, (up.rooms[r]).rota = [] ∧ (up.rooms[r]).cursor = none ∧ (up.rooms[r]).urgent = [] := by
    decide +kernel
  refine ⟨fun r => ?_, ?_, ?_⟩
  · rw [(empty r).1, (empty r).2.1, (empty r).2.2]
    simp [free]
  · intro i j a b h; simp [free i] at h
  · intro i e h; simp [free i] at h

theorem test_meets_PowerFailsAndReturns :
    ({ up with powered := false } : State).powered = false ∧ Instr.ident 1 ≠ .powerOn true true ∧ up.powered = true ∧
      (up.banks[(0 : BankNo)]).op = none ∧
      ((doing (.fetch ⟨3, 1, 0, 5, 0⟩) up).banks[(0 : BankNo)]).op = some (.fetch ⟨3, 1, 0, 5, 0⟩) ∧
      ((doing (.tagRead 5 63 0) up).banks[(0 : BankNo)]).op = some (.tagRead 5 63 0) ∧
      ((doing (.pageRead 5 63) up).banks[(0 : BankNo)]).op = some (.pageRead 5 63) ∧
      ((doing (.clear 5) up).banks[(0 : BankNo)]).op = some (.clear 5) ∧
      ((doing (.moveStep 9 5 6 ⟨0, 63⟩) up).banks[(0 : BankNo)]).op = some (.moveStep 9 5 6 ⟨0, 63⟩) ∧
      judgePage ((up.arrays[(0 : BankNo)]).view 5 63) = some (0, []) ∧
      ((doing (.pageWrite write0) up).banks[(0 : BankNo)]).op = some (.pageWrite write0) ∧
      (write0.page < 64 ∧ write0.slot < 4 ∧ write0.fillBefore + write0.data.length ≤ 2048) := by decide +kernel

/-- R12: a cut that would leave a page whose check matches, its missing bytes being FFh, is not one that a power failure
leaves; one that leaves a page that fails its check is. -/
theorem test_cut_of_a_write :
    let cutTo (data : List Byte) (n : Nat) :=
      judgePage (((after (.powerFail (.dataCut n) .untouched) (doing (.pageWrite { write0 with
        data := data, fillAfter := data.length, segTag := none }) up)).arrays[(0 : BankNo)]).view 5 0)
    cutTo [1, 0xFF] 1 = some (0, []) ∧ cutTo [1, 2] 1 = none := by decide +kernel

theorem test_meets_PowerFailsAndReturns_arrays : (doing (.pageWrite write0) up).arraysSound ∧ write0.inPage :=
  ⟨fun k => reset_arrays_wf k, by unfold LoadBuf.inPage; decide +kernel⟩

theorem test_meets_ReceiverCollectsOrAbandonsAFrame :
    up.powered = true ∧ up.link.receiver = .hunt ∧ (0xC4#8 : Byte) ≠ 0xC5#8 ∧
      ([0xC5#8].length < 2) ∧
      (2 ≤ field ([0xC5#8, 0] ++ [2#8]) 1 2 ∧ field ([0xC5#8, 0] ++ [2#8]) 1 2 ≤ 2082 ∧
        [0xC5#8, 0].length + 1 < field ([0xC5#8, 0] ++ [2#8]) 1 2 + 5) ∧
      (field ([0xC5#8, 0x08] ++ [0x22#8]) 1 2 = 2082) ∧
      (field ([0xC5#8, 0] ++ [1#8]) 1 2 < 2) ∧ (2082 < field ([0xC5#8, 0x08] ++ [0x23#8]) 1 2) ∧
      ([0xC5#8, 0, 2, 1, 7, 0].length + 1 = field ([0xC5#8, 0, 2, 1, 7, 0] ++ [0#8]) 1 2 + 5 ∧
        (crc ((([0xC5#8, 0, 2, 1, 7, 0] ++ [0#8]).drop 1).take (2 + 2))).toNat ≠
          field ([0xC5#8, 0, 2, 1, 7, 0] ++ [0#8]) (2 + 3) 2) ∧
      (up.modLink (fun l => { l with gap := some 1, receiver := .framing [0xC5] })).link.gap = some 1 := by
  decide +kernel

theorem test_meets_IntactFramesAreJudged :
    (up.modLink (fun l => { l with resetting := true })).link.resetting = true ∧
      8 ≤ (up.modLink (fun l => { l with inbound := List.replicate 8 ⟨0, 0, 1, 0, true⟩ })).link.inbound.length ∧
      up.ready ∧ 0x06 ∉ [0x01, 0x02, 0x03, 0x04, 0x05] ∧ ([0#8] : List Byte).length ≠ 0 ∧
      (up.modLink (fun l => { l with inbound := List.replicate 7 ⟨0, 0, 1, 0, true⟩ })).ready := by
  unfold State.ready; decide +kernel

theorem test_meets_MessageDepartures :
    up.link.outbound = [] ∧
      (let s := up.modLink (fun l => { l with inbound := [⟨0, 1, 2, 0, true⟩], outbound := [.reply 0 1 false [5]] })
       s.link.outbound = .reply 0 1 false [5] :: [] ∧ (after .messageSent s).link.inbound = []) ∧
      (let s := up.modLink (fun l => { l with inbound := [⟨0, 1, 2, 0, true⟩], outbound := [.reply 0 1 true []] })
       s.link.outbound = .reply 0 1 true [] :: [] ∧ (⟨0, 1, 2, 0, true⟩ : Inbound) ∈ s.link.inbound) ∧
      (let s := up.modLink (fun l => { l with inbound := [⟨0, 1, 1, 0, true⟩], outbound := [.reply 0 1 true []] })
       ∀ c ∈ s.link.inbound, c.place = 0 → c.type ≠ 0x02) ∧
      (let s := (up.modLink (fun l => { l with outbound := List.replicate 24 (.notice (.device .linkError) 1) })).modEvu
        (fun u => { u with owed := [.device .writeFail] })
       s.link.outbound = .notice (.device .linkError) 1 :: List.replicate 23 (.notice (.device .linkError) 1) ∧
       (List.replicate 23 (OutMsg.notice (.device .linkError) 1)).countP OutMsg.isNotice = 23 ∧
       s.evu.owed = .device .writeFail :: []) := by decide +kernel

/-- R167: the bits of C5h, the first byte of a frame, one base tick apart at 115,200 bit/s (six bit times in five ticks): the
start bit, bits 0 to 3 and 5 to 7 of the byte, the stop bit; and the line is high after the frame. -/
theorem test_transmit_line :
    lineBits 0xC5#8 = [false, true, false, true, false, false, false, true, true, true] ∧
      (let l (n : Nat) : Link := { Link.initial 115200 with outbound := [.reply 0 1 true []], sendTicks := n }
       ([0, 1, 2, 3, 4, 5, 6, 7, 8].map (fun n => (l n).bitTimes) = [0, 1, 2, 3, 4, 6, 7, 8, 9]) ∧
       ([0, 1, 2, 3, 4, 5, 6, 7, 8].map (fun n => (l n).transmitLine) =
         [false, true, false, true, false, false, true, true, true]) ∧
       (10 * (OutMsg.reply 0 1 true []).frame.length ≤ (l 59).bitTimes ∧ (l 59).transmitLine = true)) ∧
      up.link.transmitLine = true ∧ ((up.done 0 []).tickSend).link.sendTicks = 1 := by decide +kernel

theorem test_meets_SoftResetStopsTheQueue :
    up.ready ∧ ((up.banks[(0 : BankNo)]).op = none ∧ (up.banks[(1 : BankNo)]).op = none) ∧
      State.reset.ready ∧ (State.reset.banks[(0 : BankNo)]).op ≠ none := by unfold State.ready; decide +kernel

theorem test_meets_NoticeSetReplacesSwitchAndMask :
    up.ready ∧ 1 < 2 ∧ 0x2000#16 &&& 0xE000#16 ≠ 0#16 ∧ 0x1FFF#16 &&& 0xE000#16 = 0#16 := by
  unfold State.ready; decide +kernel

theorem test_meets_EventsAreReadAndCleared :
    up.ready ∧ 16 < 17 ∧ ((up.raiseDevice .mountDone).evu.latch (.device .mountDone)).set_ = true ∧
      0x0100#16 &&& 0xFF00#16 ≠ 0#16 ∧ 0x0080#16 &&& 0xE0FF#16 ≠ 0#16 ∧ 0x00FF#16 &&& 0xFF00#16 = 0#16 ∧
      0x1F00#16 &&& 0xE0FF#16 = 0#16 ∧ up.evu.latch (.device .linkError) = ⟨false, 0, false⟩ ∧
      (let s := up.modEvu (fun u => { u with switch := true })
       s.evu.latch (.device .linkError) = ⟨false, 0, false⟩ ∧ s.evu.enabled (.device .linkError) = true ∧
         s.link.notices < 24) ∧
      (let s := (up.modEvu (fun u => { u with switch := true })).modLink
        (fun l => { l with outbound := List.replicate 24 (.notice (.device .writeFail) 1) })
       s.evu.enabled (.device .linkError) = true ∧ 24 ≤ s.link.notices) ∧
      up.evu.enabled (.device .linkError) = false := by unfold State.ready; decide +kernel

/-- A line held by each function of room 3, and by none. -/
theorem test_meets_HolderIsTheHighestRankedClaim :
    (external .armed ⟨false, false, false⟩).holder 0 = some (.frameIn, 3) ∧ up.holder 0 = none := by decide +kernel

def emitting : State := at3 (fun c => { c with show_ := .armed, emitLine := some 47, tallyLine := some 0 })

theorem test_meets_LineSetReplacesThePlainSetting :
    up.ready ∧ 47 < 48 ∧ Pull.none.code = 0 ∧ Pull.up.code = 1 ∧ Pull.down.code = 2 ∧ up.holder 47 = none ∧
      emitting.ready ∧ emitting.holder 47 = some (.emitEnable, 3) ∧ emitting.holder 0 = some (.tally, 3) ∧
      (external .armed ⟨false, false, false⟩).ready ∧
      (external .armed ⟨false, false, false⟩).holder 0 = some (.frameIn, 3) ∧
      (external .armed ⟨false, false, false⟩).holder 47 = some (.runIn, 3) := by unfold State.ready; decide +kernel

/-- Line 0 wanted as frame line by a DARK room 3 with a bound binding, and had by room 4 for a function, in a show
state and with a hold-cause set; its pin and the outside are high. -/
def contended (show3 show4 : ShowState) (f : LineFn) (holds : Holds) : State :=
  (((bound .live .live (at3 (fun c => { c with show_ := show3, frameLine := some 0 }))).modClock 4 (fun c =>
    { c with
      show_ := show4, holds := holds
      frameLine := if f = .frameIn then some 0 else none, runLine := if f = .runIn then some 0 else none })).modBinding
    4 0 (fun b => { b with state := .playing, kind := some .live, track := .live })).modLine 0
      (fun l => { l with pin := true, outside := some true })

theorem test_meets_ClaimsConflictAndTakeOver :
    (let s := contended .dark .armed .frameIn Holds.empty
     s.ready ∧ (s.clock 3).show_ = .dark ∧ (s.binding 3 1).bound = true ∧ s.holder 0 = some (.frameIn, 4)) ∧
      (let s := contended .armed .dark .frameIn Holds.empty
       s.ready ∧ (s.clock 4).show_ = .dark ∧ (s.binding 4 0).bound = true ∧ s.holder 0 = some (.frameIn, 3)) ∧
      (contended .dark .dark .frameIn Holds.empty).holder 0 = none ∧
      (let s := contended .dark .running .runIn Holds.empty
       s.holder 0 = some (.runIn, 4) ∧ (s.lines[(0 : LineNo)]).pin = true ∧ (s.clock 4).show_ = .running) ∧
      (let s := contended .armed .held .runIn ⟨false, true, false⟩
       s.ready ∧ (s.clock 3).show_ = .armed ∧ s.holder 0 = some (.frameIn, 3) ∧
         (s.lines[(0 : LineNo)]).outside = some true ∧ (s.clock 4).show_ = .held ∧
         (s.clock 4).holds = ⟨false, true, false⟩ ∧ (s.clock 4).frameLine = none) := by
  unfold State.ready; decide +kernel

/-- R161 to R163: of two rooms the lower-numbered one has the line, whichever leaves DARK second; a RUN_IN claim blocked
holds its show, and one that takes the line over high lets it go on. -/
theorem test_claims :
    (let t := after (.arm 1 3 0 0 0) (contended .dark .armed .frameIn Holds.empty)
     t.holder 0 = some (.frameIn, 3) ∧ t.blockedOn 0 = 1 ∧ (t.evu.latch (.room 4 .lineConflict)).count = 1) ∧
      (let t := after (.arm 1 4 0 0 0) (contended .armed .dark .frameIn Holds.empty)
       t.holder 0 = some (.frameIn, 3) ∧ (t.evu.latch (.room 4 .lineConflict)).count = 1) ∧
      (let t := after (.arm 1 3 0 0 0) (contended .dark .running .runIn Holds.empty)
       (t.clock 4).show_ = .held ∧ (t.clock 4).holds = ⟨false, true, false⟩) ∧
      (let t := after (.roomDark 1 3) (contended .armed .held .runIn ⟨false, true, false⟩)
       t.holder 0 = some (.runIn, 4) ∧ (t.clock 4).show_ = .running ∧ (t.clock 4).syncTimer = some 12000 ∧
         (t.evu.latch (.room 4 .lineConflict)).count = 0) := by decide +kernel

/-- Every command that is refused or judged while ready: the part is ready, mounted or mounting. -/
theorem test_meets_RoomsAndTheMountRefuseWholeCommands :
    up.ready ∧ 15 < 16 ∧ (List.replicate 39 (8, 4)).length = 39 ∧ State.reset.ready ∧ State.reset.mounting = true ∧
      1 ≤ [0#8].length ∧ (List.replicate 2048 (0 : Byte)).length ≤ 2048 ∧ Machine.Lang.valid eng = true ∧
      (List.replicate 16 (⟨0, [0]⟩ : Patch)).length ≤ 16 := by unfold State.ready; decide +kernel

theorem test_meets_RoomSetupReplacesTheSetup :
    up.ready ∧ (up.clock 3).show_ = .dark ∧ (shown .ended).ready ∧ ((shown .ended).clock 3).show_ ≠ .dark ∧
      (96000 % (120 * 2) = 0 ∧ 2 ≤ 96000 / (120 * 2) ∧ 96000 / (120 * 2) ≤ 65535) ∧ 96000 % (119 * 2) ≠ 0 ∧
      (said (.roomSetup 1 3 1 24 2 48 0 0 0 0 0) up = [(false, [3#8, 0, 0, 0, 5])] ∧
        said (.roomSetup 1 3 1 24 2 47 47 0 0 0 0) up = [(false, [3#8, 0, 0, 0, 6])] ∧
        said (.roomSetup 1 3 1 24 2 47 255 47 0 0 0) up = [(false, [3#8, 0, 0, 0, 7])] ∧
        said (.roomSetup 1 3 1 24 2 47 255 255 47 0 0) up = [(false, [3#8, 0, 0, 0, 8])] ∧
        said (.roomSetup 1 3 1 24 2 47 255 255 255 33 0) up = [(false, [3#8, 0, 0, 0, 9])] ∧
        said (.roomSetup 1 3 1 24 2 47 255 255 255 32 251) up = [(false, [3#8, 0, 0, 0, 10])]) ∧
      (∀ q : RoomNo, q ≠ 3 → (up.clock q).channel ≠ 32) ∧ (up.clock 4).channel = 5 := by
  unfold State.ready; decide +kernel

theorem test_meets_ArmArmsTheRoom :
    (bound .live .live up).ready ∧ (((bound .live .live up).clock 3).show_ = .dark) ∧
      ((bound .live .live up).binding 3 1).bound = true ∧ (bound .text (.stored 9) (shown .ended)).ready ∧
      ((bound .text (.stored 9) (shown .ended)).clock 3).show_ = .ended ∧
      ((bound .text (.stored 9) (shown .ended)).binding 3 1).bound = true ∧
      (∀ i : BindNo, (up.binding 3 i).bound = false) ∧ ((shown .held).clock 3).show_ ≠ .dark ∧
      (16777214 ≤ 16777214 ∧ 16777214 < 16777215) := by unfold State.ready; decide +kernel

theorem test_meets_GoHoldResumeAndRetrimMoveTheClock :
    ((internal .armed).ready ∧ ((internal .armed).clock 3).mode = .internal ∧ ((internal .armed).clock 3).show_ = .armed ∧
      ((shown .armed).clock 3).mode = .external ∧ ((internal .running).clock 3).show_ ≠ .armed) ∧
      ((shown .running).ready ∧ ((shown .running).clock 3).show_ = .running ∧ ((shown .held).clock 3).show_ = .held ∧
      ((shown .armed).clock 3).show_ ≠ .held ∧
      ((external .held ⟨true, true, false⟩).clock 3).holds.runLow = true ∧
      ((external .held ⟨true, false, true⟩).clock 3).holds.syncLost = true ∧
      (let c := (external .held ⟨true, false, false⟩).clock 3
       c.show_ = .held ∧ c.holds.runLow = false ∧ c.holds.syncLost = false)) ∧
      (internal .held).ready ∧ ((internal .held).clock 3).mode = .internal ∧ ((internal .held).clock 3).show_ = .held ∧
      (98 * 1920 ≤ 100 * 1882 ∧ 100 * 1958 ≤ 102 * 1920) ∧ ¬(98 * 1920 ≤ 100 * 1881) ∧ ¬(100 * 1959 ≤ 102 * 1920) ∧
      ((at3 (fun c => { c with pendingDiv := some 7 })).clock 3).pendingDiv = some 7 := by
  unfold State.ready; decide +kernel

theorem test_meets_SeekSetsThePosition :
    (bound .voice (.stored 9) (shown .ended)).ready ∧ ((shown .ended).clock 3).show_ = .ended ∧
      (up.clock 3).show_ = .dark ∧ ((shown .held).clock 3).show_ ≠ .dark ∧ ((shown .held).clock 3).endPos = none ∧
      ((at3 (fun c => { c with endPos := some 5 })).clock 3).endPos = some 5 := by unfold State.ready; decide +kernel

theorem test_meets_EndEndsTheShow :
    (bound .live .live (shown .running)).ready ∧ ((bound .live .live (shown .running)).clock 3).show_ = .running ∧
      ((bound .live .live (shown .running)).binding 3 1).state = .playing ∧
      ((bound .live .live (shown .running)).binding 3 0).state = .unbound ∧ (up.clock 3).show_ = .dark := by
  unfold State.ready; decide +kernel

theorem test_meets_RoomDarkTakesTheRoomOutOfService :
    (shown .armed).ready ∧ ((shown .armed).clock 3).show_ = .armed ∧ ((shown .ended).clock 3).show_ = .ended ∧
      ((shown .running).clock 3).show_ ≠ .armed ∧ ((shown .running).clock 3).show_ ≠ .ended := by
  unfold State.ready; decide +kernel

theorem test_meets_RoomResetClearsTheRoom :
    (withTrack { sealedTrack with bindCount := 1 } none (bound .text (.stored 9) up)).ready ∧
      ((withTrack { sealedTrack with bindCount := 1 } none (bound .text (.stored 9) up)).track? 9).isSome = true := by
  unfold State.ready; decide +kernel

/-- FRAME_PULSE: the clock of room 3 holds line 0 in each show state, at a high and a low run level. -/
theorem test_meets_FramePulsesAreCounted :
    (∀ show_ ∈ [ShowState.armed, .running, .held, .ended],
      let s := withPins true (external show_ ⟨false, false, decide (show_ = .held)⟩)
      s.powered = true ∧ (s.clock 3).mode = .external ∧ (s.clock 3).frameLine = some 0 ∧
        s.holder 0 = some (.frameIn, 3) ∧ (s.lines[(0 : LineNo)]).pin = false ∧ s.runLevel 3 = true ∧
        (s.clock 3).show_ = show_ ∧ (s.clock 3).pos + 1 ≠ (s.clock 3).endPos.getD 16777215) ∧
      (withPins false (external .running ⟨false, false, false⟩)).runLevel 3 = false ∧
      (withPins true (external .held ⟨true, false, true⟩)).runLevel 3 = true ∧
      ∀ x ∈ [(ShowState.running, false), (.armed, false), (.held, true)],
        let s := withPins true ((external x.1 ⟨false, false, x.2⟩).modClock 3 (fun c => { c with pos := 16777214 }))
        s.runLevel 3 = true ∧ (s.clock 3).pos + 1 = (s.clock 3).endPos.getD 16777215 ∧ (s.clock 3).show_ = x.1 ∧
          (s.clock 3).holds = ⟨false, false, x.2⟩ := by decide +kernel

/-- R61, log 3: a RUN_LINE_CHANGE to the level the pin has changes nothing, what drives the pin from outside included. -/
theorem test_run_line_change_to_the_same_level :
    let s := withPins true (external .running Holds.empty)
    (after (.runLineChange 3 true) s).lines = s.lines ∧ (after (.runLineChange 3 true) s).clock 3 = s.clock 3 := by
  decide +kernel

theorem test_meets_RunLineChangesHoldAndRelease :
    ∀ pin ∈ [true, false], ∀ x ∈ [(ShowState.running, Holds.empty), (.held, ⟨true, true, false⟩), (.held, ⟨false, true, false⟩),
        (.held, ⟨false, true, true⟩), (.armed, Holds.empty), (.ended, Holds.empty)],
      let s := withPins pin (external x.1 x.2)
      s.powered = true ∧ (s.clock 3).mode = .external ∧ (s.clock 3).runLine = some 47 ∧
        s.holder 47 = some (.runIn, 3) ∧ (s.lines[(47 : LineNo)]).pin ≠ !pin ∧ (s.clock 3).show_ = x.1 ∧
        (s.clock 3).holds = x.2 ∧ (s.lines[(47 : LineNo)]).pin = pin ∧ (up.clock 3).runLine = none := by decide +kernel

theorem test_meets_TimerAndChainExpiriesMoveTheClock :
    (let s := external .running Holds.empty
     s.powered = true ∧ (s.clock 3).show_ = .running ∧ (s.clock 3).syncTimer = some 1) ∧
      ∀ div ∈ [1, 2], ∀ pos ∈ [0, 16777214],
        let s := (internal .running).modClock 3 (fun c => { c with chain := .running 1 div, pos := pos })
        s.powered = true ∧ (s.clock 3).chain = .running 1 div ∧ (s.clock 3).show_ = .running ∧
          (s.clock 3).pendingDiv = none ∧ (s.clock 3).current = some 1920 ∧
          (((s.clock 3).pos + 1 = (s.clock 3).endPos.getD 16777215) ↔ pos = 16777214) := by decide +kernel

/-! The pin of a line held by each function, driven or not: the states are those of LINE_SET. -/

theorem test_meets_PinChangesReachTheLine :
    up.powered = true ∧ up.holder 47 = none ∧ emitting.holder 47 = some (.emitEnable, 3) ∧
      emitting.holder 0 = some (.tally, 3) ∧
      (external .armed ⟨false, false, false⟩).holder 0 = some (.frameIn, 3) ∧
      (external .armed ⟨false, false, false⟩).holder 47 = some (.runIn, 3) := by decide +kernel

/-! ### Maps, bindings, tracks -/

def wide : List (Nat × Nat) := [(2, 2), (2, 2)] ++ List.replicate 36 (0, 0) ++ [(8, 4)]
def bare : List (Nat × Nat) := List.replicate 39 (0, 0)

theorem test_meets_SlotMapIsTaken :
    (bound .voice (.stored 9) up).ready ∧ wide.length = 39 ∧ bare.length = 39 ∧
      (∀ e ∈ wide ++ bare, (e.1 ≤ 4 ∨ e.1 = 8) ∧ (e.2 ≤ 4 ∨ e.2 = 8)) ∧
      (2 ≤ wide.countP (fun e => decide (e.1 = 1 + 1)) ∧ 2 ≤ wide.countP (fun e => decide (e.2 = 1 + 1))) ∧
      ¬2 ≤ bare.countP (fun e => decide (e.1 = 1 + 1)) ∧ ((bound .voice (.stored 9) up).binding 3 1).bound = true ∧
      ((bound .voice (.stored 9) up).clock 3).show_ = .dark ∧ ((bound .voice (.stored 9) (shown .held)).clock 3).show_ ≠ .dark ∧
      ((List.replicate 38 (0, 0) ++ [(0, 7)])[38]? = some (0, 7) ∧ ¬(7 ≤ 4 ∨ 7 = 8)) ∧
      (∃ e ∈ wide, e.1 = 8 ∨ e.2 = 8) ∧ (∀ e ∈ bare, e.1 ≠ 8 ∧ e.2 ≠ 8) := by unfold State.ready; decide +kernel

theorem test_meets_BindBindsATrack :
    (∀ show_ ∈ [ShowState.dark, .armed, .running, .held, .ended],
      let s := withTrack sealedTrack none (shown show_)
      (s.powered = true ∧ s.link.resetting = false ∧ s.link.inbound.length < 8) ∧ s.mounting = false ∧
        (s.binding 3 1).state = .unbound ∧ mapServes (s.rooms[(3 : RoomNo)]).comp.active .text 1 = true ∧
        mapServes (s.rooms[(3 : RoomNo)]).comp.active .voice 1 = true ∧
        mapServes (s.rooms[(3 : RoomNo)]).comp.active .live 1 = true ∧
        (s.rooms[(3 : RoomNo)]).comp.pendingMap = none ∧ s.track? 9 = some sealedTrack ∧ sealedTrack.state = .sealed) ∧
      Machine.Lang.valid eng = true ∧ up.track? 9 = none ∧ (withTrack loading none up).track? 9 = some loading ∧
      ((up.modBinding 3 1 (fun b => { b with state := .unbinding })).binding 3 1).state = .unbinding ∧
      ((bound .live .live up).binding 3 1).state = .playing ∧ mapServes (mapOf bare) .text 1 = false ∧
      mapServes (mapOf wide) .text 1 = true ∧
      (let s := up.modComp 3 (fun c => { c with active := mapOf wide, pendingMap := some (mapOf bare) })
       (s.binding 3 1).state = .unbound ∧ (s.rooms[(3 : RoomNo)]).comp.active = mapOf wide ∧
         (s.rooms[(3 : RoomNo)]).comp.pendingMap = some (mapOf bare)) := by decide +kernel

theorem test_meets_UnbindReleasesTheBinding :
    (∀ x ∈ [(BKind.text, TrackRef.stored 9, ShowState.running), (.live, .live, .dark), (.voice, .stored 9, .held)],
      let s := bound x.1 x.2.1 (shown x.2.2)
      (s.powered = true ∧ s.link.resetting = false ∧ s.link.inbound.length < 8) ∧ (s.binding 3 1).state ≠ .unbound ∧
        (s.binding 3 1).state ≠ .unbinding ∧ (s.binding 3 1).kind = some x.1) ∧
      3 < 4 ∧ (up.binding 3 1).state = .unbound ∧
      (withTrack { sealedTrack with bindCount := 1 } none up).track? 9 = some { sealedTrack with bindCount := 1 } := by
  decide +kernel

theorem test_meets_LiveTextJoinsTheRing :
    (bound .live .live up).ready ∧ (List.replicate 244 (0 : Byte)).length ≤ 244 ∧ 244 < (List.replicate 245 (0 : Byte)).length ∧
      ((bound .live .live up).binding 3 1).track = .live ∧ ((bound .live .live up).binding 3 1).state = .playing ∧
      ((bound .live .live up).rooms[(3 : RoomNo)]).ring.length < 8 ∧
      8 ≤ ((up.modRoom 3 (fun r => { r with ring := List.replicate 8 ⟨1, 1, [1], 1, false⟩ })).rooms[(3 : RoomNo)]).ring.length ∧
      (up.binding 3 1).track ≠ .live := by unfold State.ready; decide +kernel

theorem test_meets_RoundBoundaryComposesARound :
    (shown .armed).powered = true ∧ ((shown .armed).clock 3).show_ ≠ .dark ∧
      (∀ i : BindNo, (shown .armed).binding 3 i = Binding.initial) ∧ Binding.initial.pagesSound ∧
      (let t := after (.roundBoundary 3) (shown .armed)
       (t.rooms[(3 : RoomNo)]).comp.tx.map List.length = some 726 ∧ (t.rooms[(3 : RoomNo)]).comp.roundTimer = some 1920 ∧
         (t.clock 3).show_ ≠ .dark ∧ (1920 - 1920) * 5808 / 1920 = 8 * 0 + 0 ∧
         (1920 - 1) * 5808 / 1920 = 8 * 725 + 4) := by
  refine ⟨by decide +kernel, by decide +kernel, by decide +kernel, ?_, by decide +kernel⟩
  simp [Binding.pagesSound, Binding.initial]

/-- R144: the first byte of a round at the emitter port is 9Dh, most significant bit first; in DARK the port is low. -/
theorem test_emitter_port :
    ([1920, 1919, 1918].map (fun n => (((after (.roundBoundary 3) (shown .armed)).modComp 3
      (fun c => { c with roundTimer := some n })).rooms[(3 : RoomNo)]).comp.bitsSent)) = [0, 3, 6] ∧
      bitsOf [0x9D#8] = [true, false, false, true, true, true, false, true] ∧
      (after (.roundBoundary 3) (shown .armed)).emitterPort 3 = true ∧ up.emitterPort 3 = false := by decide +kernel

/-- A binding 1 of room 3 with what its feed queues hold. -/
def feeds (prompt rept : List FeedMsg) (state : BState) : State :=
  up.modBinding 3 1 (fun b => { b with
    state := state, kind := some .text, prompt := prompt, rept := rept
    window := [⟨7, .frames 1 2, 0, [0x61], none⟩] })

def show7 : MsgBody := .show_ 7 0x13 (List.replicate 27 0x61)

theorem test_meets_SlotsAreFilledByTheirCarriers :
    ((bound .voice (.stored 9) up).binding 3 1).kind = some .voice ∧ (up.binding 3 1).kind ≠ some .voice ∧
      (up.binding 3 1).prompt = [] ∧ (up.binding 3 1).rept = [] ∧
      (∀ x ∈ [([⟨show7, 0⟩], [⟨.wipe, 0⟩], true), ([⟨show7, 1⟩], [⟨show7, 1⟩], true), ([⟨.wipe, 0⟩], [⟨show7, 1⟩], false),
          (([] : List FeedMsg), [⟨show7, 0⟩], false)],
        let b := (feeds x.1 x.2.1 .playing).binding 3 1
        b.kind ≠ some .voice ∧
          (if x.2.2 then b.prompt = x.1 ∧ ∀ q ∈ x.2.1.head?, 0 < q.sent → ∀ m ∈ x.1.head?, 0 < m.sent
           else b.rept = x.2.1 ∧ ∀ p ∈ x.1.head?, p.sent = 0 ∧ ∀ m ∈ x.2.1.head?, 0 < m.sent)) ∧
      (show7.bytes.length + 15) / 16 = 2 ∧ ((feeds [⟨.wipe, 0⟩] [] .unbinding).binding 3 1).state = .unbinding := by
  decide +kernel

/-- R98: the last fragment of a SHOW starts the cue's age, that of a CLEAR with the notify mark raises LIVE_SENT, that of
the WIPE of an UNBINDING binding makes it UNBOUND; a partly sent repeat SHOW goes before the prompt queue. -/
theorem test_slots :
    (((feeds [⟨show7, 1⟩] [] .playing).fillSlotOf 3 [] (.binding 1)).1.binding 3 1).window.map (·.age) = [some 0] ∧
      ((((feeds [⟨.clear 7 true, 0⟩] [] .playing).fillSlotOf 3 [] (.binding 1)).1.evu.latch (.room 3 .liveSent)).count = 1) ∧
      (((feeds [⟨.wipe, 0⟩] [] .unbinding).fillSlotOf 3 [] (.binding 1)).1.binding 3 1).state = .unbound ∧
      ((feeds [⟨.wipe, 0⟩] [⟨show7, 1⟩] .playing).fillSlotOf 3 [] (.binding 1)).2.take 2 = [2#8, 0x41#8] := by
  decide +kernel

theorem test_meets_TrackCreateMakesALoadingEntry :
    up.ready ∧ up.mounting = false ∧ State.reset.mounting = true ∧ Machine.Lang.valid eng = true ∧
      (∃ tr ∈ (withTrack loading none up).tracks, tr.id = 9) ∧ (∀ tr ∈ up.tracks, tr.id ≠ 9) ∧ up.tracks.length < 128 ∧
      128 ≤ ({ up with tracks := List.replicate 128 loading } : State).tracks.length ∧
      (∀ tr ∈ ({ up with tracks := List.replicate 128 loading } : State).tracks, tr.id ≠ 8) := by
  unfold State.ready; decide +kernel

theorem test_meets_TrackWriteFillsTheLoadBuffer :
    (∀ page ∈ [0, 63, 64],
      let s := withTrack loading (some ⟨page, 1, 17⟩) up
      (s.powered = true ∧ s.link.resetting = false ∧ s.link.inbound.length < 8) ∧ s.mounting = false ∧
        s.track? 9 = some loading ∧ (s.banks[loading.bank]).loadBuf = none ∧
        ((s.banks[loading.bank]).segs[(5 : SegNo)]).cursor = some ⟨page, 1, 17⟩ ∧
        (s.banks[loading.bank]).free = 6 :: [7]) ∧
      loading.state = .loading ∧ loading.sealPending = false ∧ loading.writePos = some 17 ∧
      loading.segs.getLast? = some ⟨0, 5, 10⟩ ∧ loading.segs.length < 256 ∧ cueBytes.length ≤ 2048 - 17 ∧
      parse loading.kind (loading.running.getD ParserState.start) cueBytes = .ok ⟨34, 0, 10, 20, 10, 2⟩ false := by
  decide +kernel

/-- TRACK_WRITE: what each refusal is judged on. -/
theorem test_meets_TrackWriteFillsTheLoadBuffer_refused :
    up.track? 9 = none ∧ sealedTrack.state ≠ .loading ∧ loading.writePos ≠ some 16 ∧
      (let s := withTrack loading (some ⟨63, 1, 2031⟩) up
       ((s.banks[(0 : BankNo)]).segs[(5 : SegNo)]).cursor = some ⟨63, 1, 2031⟩ ∧ 2048 - 2031 < 18 ∧
         17 ≤ 2048 - 2031) ∧
      parse .text ParserState.start [1#8, 0, 0, 0, 20, 0, 0, 0, 10, 0, 0, 5] = .bad .badCue 0 ∧
      ((up.modBank 0 (fun b => { b with loadBuf := some write0 })).banks[(0 : BankNo)]).loadBuf ≠ none ∧
      (let s := up.modBank 0 (fun b => { b with free := [] })
       (s.banks[(0 : BankNo)]).free = [] ∧ (s.banks[(0 : BankNo)]).clearQ = []) ∧
      256 ≤ (List.replicate 256 (⟨0, 5, 0⟩ : SegElem)).length ∧
      (∃ e lb, loading.segs.getLast? = some e ∧
        ((doing (.pageWrite write0) up).banks[loading.bank]).op = some (.pageWrite lb) ∧ lb.trackId = 9 ∧ lb.seg = e.seg) := by
  refine ⟨by decide +kernel, by decide +kernel, by decide +kernel, by decide +kernel, by decide +kernel,
    by decide +kernel, by decide +kernel, by decide +kernel, ⟨0, 5, 10⟩, write0, by decide +kernel, by decide +kernel,
    rfl, rfl⟩

theorem test_meets_TrackSealPlacesTheEndRecord :
    ∀ x ∈ [(2036, 0), (2037, 0), (17, 5)],
      let tr := { loading with running := some ⟨17, x.2, 10, 20, 10, 1⟩ }
      let s := withTrack tr (some ⟨63, 1, x.1⟩) up
      (s.powered = true ∧ s.link.resetting = false ∧ s.link.inbound.length < 8) ∧ s.mounting = false ∧
        s.track? 9 = some tr ∧ tr.state = .loading ∧ tr.sealPending = false ∧ tr.writePos = some 17 ∧
        (s.banks[tr.bank]).loadBuf = none ∧ tr.segs.getLast? = some ⟨0, 5, 10⟩ ∧
        ((s.banks[tr.bank]).segs[(5 : SegNo)]).cursor = some ⟨63, 1, x.1⟩ := by decide +kernel

/-- TRACK_SEAL onto a new segment: the last one full, or none; a load buffer full; no segment free. -/
theorem test_meets_TrackSealPlacesTheEndRecord_new :
    ∀ segs ∈ [loading.segs, ([] : List SegElem)], ∀ buf ∈ [none, some write0], ∀ free ∈ [[6, 7], ([] : List SegNo)],
      let tr := { loading with segs := segs }
      let s := (withTrack tr (some ⟨64, 0, 0⟩) up).modBank 0 (fun b => { b with loadBuf := buf, free := free })
      (s.powered = true ∧ s.link.resetting = false ∧ s.link.inbound.length < 8) ∧ s.mounting = false ∧
        s.track? 9 = some tr ∧ tr.state = .loading ∧ tr.sealPending = false ∧ tr.writePos = some 17 ∧
        tr.running = some ⟨17, 0, 10, 20, 10, 1⟩ ∧ (tr.segs = [] ∨ tr.segs.getLast? = some ⟨0, 5, 10⟩) ∧
        ((s.banks[tr.bank]).segs[(5 : SegNo)]).cursor = some ⟨64, 0, 0⟩ ∧ tr.segs.length < 256 ∧
        (s.banks[tr.bank]).loadBuf = buf ∧ (s.banks[tr.bank]).free = free ∧ (s.banks[tr.bank]).clearQ = [] := by
  decide +kernel

/-- TRACK_SEAL: what each refusal is judged on, one byte short of the END record's room and at it, with a text unfinished,
a full load buffer on an open segment, 256 segments, and no segment free with and without one to be cleared. -/
theorem test_meets_TrackSealPlacesTheEndRecord_refused :
    (2048 - 2037 < 12 ∧ 12 ≤ 2048 - 2036 ∧ 0 < 5) ∧
      (∀ buf ∈ [none, some write0], ∀ x ∈ [(2036, 0), (2037, 0), (2037, 5)],
        let tr := { loading with running := some ⟨17, x.2, 10, 20, 10, 1⟩ }
        let t := after (.trackSeal 1 9 17)
          ((withTrack tr (some ⟨63, 1, x.1⟩) up).modBank 0 (fun b => { b with loadBuf := buf }))
        t.link.outbound = if x.2 = 5 then [.reply 0 1 false (refusedBody .badCue 0)]
          else if x.1 = 2037 then [.reply 0 1 false (refusedBody .badArg 11)]
          else if buf = none then [] else [.reply 0 1 false (refusedBody .busy 0)]) ∧
      (∀ n ∈ [255, 256], ∀ clearQ ∈ [[], [(8 : SegNo)]],
        let tr := { loading with segs := List.replicate n ⟨0, 5, 10⟩ }
        let t := after (.trackSeal 1 9 17)
          ((withTrack tr (some ⟨64, 0, 0⟩) up).modBank 0 (fun b => { b with free := [], clearQ := clearQ }))
        t.link.outbound =
          [.reply 0 1 false (refusedBody (if n = 256 ∨ clearQ = [] then .noSpace else .busy) 0)]) := by
  decide +kernel

theorem test_meets_TrackMoveBeginsAMove :
    ∀ free ∈ [[6, 7], ([] : List SegNo)], ∀ clearQ ∈ [[(8 : SegNo)], []],
      let tr := { sealedTrack with gen := 254 }
      let s := (withTrack tr none up).modBank 0 (fun b => { b with free := free, clearQ := clearQ })
      (s.powered = true ∧ s.link.resetting = false ∧ s.link.inbound.length < 8) ∧ s.mounting = false ∧
        s.track? 9 = some tr ∧ tr.state = .sealed ∧ tr.gen < 255 ∧
        (∀ n ∈ [0, 1], ∀ q ∈ ([⟨12, [0x7A]⟩, ⟨13, List.replicate 4 0x7A⟩] : List Patch)[n]?,
          (1 ≤ q.bytes.length ∧ q.bytes.length ≤ 64 ∧
            patchEnd [⟨12, [0x7A]⟩, ⟨13, List.replicate 4 0x7A⟩] n ≤ q.offset ∧ q.offset + q.bytes.length + 12 ≤ 29)) ∧
        tr.writePos = some 29 ∧ 29 < 14 + 4 + 12 ∧ up.track? 9 = none ∧ sealedTrack.gen ≠ 255 ∧
        loading.state ≠ .sealed ∧ ([⟨0, []⟩] : List Patch)[0]? = some ⟨0, []⟩ ∧
        (∀ x ∈ s.tracks, x.state = .moving → x.bank ≠ tr.bank) ∧ (s.banks[tr.bank]).free = free ∧
        (s.banks[tr.bank]).clearQ = clearQ ∧ s.openPlace? 0x33 9 = none ∧
        ((after (.trackMove 1 9 []) s).link.outbound =
          if free = [] ∧ clearQ = [] then [.reply 0 1 false (refusedBody .noSpace 0)] else []) := by decide +kernel

/-- R21: a segment taken from 31, 32 and 33 that are free or to be cleared, by TRACK_WRITE, TRACK_SEAL and TRACK_MOVE, and
one that fails to clear. -/
theorem test_segments_low :
    ∀ n ∈ [31, 32, 33],
      let low (t : Track) := (withTrack t (some ⟨64, 0, 0⟩) up).modBank 0 (fun b =>
        { b with free := [6], clearQ := 5 :: List.replicate (n - 2) 8 })
      ∀ x ∈ [(Instr.trackWrite 1 9 17 cueBytes, low loading), (.trackSeal 1 9 17, low loading),
          (.trackMove 1 9 [], low sealedTrack), (.clearComplete 0 ⟨[(0, 0)], []⟩, doing (.clear 5) (low sealedTrack))],
        let t := after x.1 x.2
        (x.2.banks[(0 : BankNo)]).freePlusClear = n ∧ (t.banks[(0 : BankNo)]).freePlusClear = n - 1 ∧
          (t.evu.latch (.device .segmentsLow)).set_ = decide (n = 32) := by decide +kernel

theorem test_meets_TrackDeleteReleasesTheSegments :
    (∀ tr ∈ [sealedTrack, { loading with segs := [] }, { sealedTrack with bindCount := 1 },
        { loading with sealPending := true }],
      let s := withTrack tr none up
      (s.powered = true ∧ s.link.resetting = false ∧ s.link.inbound.length < 8) ∧ s.mounting = false ∧
        s.track? 9 = some tr ∧ (s.banks[tr.bank]).op = none ∧
        (∀ x ∈ tr.segs, ((s.banks[tr.bank]).segs[x.seg]).refs = 0) ∧ s.link.inbound = []) ∧
      (let s := (withTrack loading none up).modBank 0 (fun b =>
        { b with loadBuf := some write0, segs := b.segs.set 5 ⟨.owned, 1, none⟩ })
       (s.banks[(0 : BankNo)]).loadBuf = some write0 ∧ write0.trackId = 9 ∧ loading.bindCount = 0 ∧
         ((s.banks[(0 : BankNo)]).segs[(5 : SegNo)]).refs ≠ 0) ∧
      ((doing (.pageWrite write0) (withTrack loading none up)).banks[loading.bank]).op = some (.pageWrite write0) := by
  decide +kernel

/-- R19, R24: a deleted track has no seal summary, and a segment that a fetch names goes to the drain set. -/
theorem test_delete :
    let s := (withTrack sealedTrack none up).modBank 0 (fun b => { b with segs := b.segs.set 5 ⟨.owned, 1, none⟩ })
    let t := after (.trackDelete 1 9) s
    ((t.track? 9).map (·.summary) = some none) ∧ (t.banks[(0 : BankNo)]).drain = [5] ∧ (t.banks[(0 : BankNo)]).clearQ = [] := by
  decide +kernel

theorem test_meets_ReportsChangeNothing :
    up.ready ∧ up.mounting = false ∧ up.track? 9 = none ∧
      (withTrack sealedTrack none up).track? 9 = some sealedTrack ∧ (511 < 512 ∧ 128 < 129 ∧ 512 < 385 + 128) ∧
      384 + 128 ≤ 512 := by unfold State.ready; decide +kernel

/-! ### The roster -/

/-- No receiver is posted in the mounted part: ASSIGN takes entry 0, RELEASE finds none. -/
theorem test_meets_AssignPostsAReceiver_new (i : RosterIx) : up.roster[i] = none := by
  simp [up, State.reset, State.powerOnValues]

theorem test_meets_AssignPostsAReceiver :
    (0 = 0 ∨ 15 < 16) ∧ (3 < 4 ∧ 4 < 5 ∧ 7 < 8) ∧ (posted entry up).ready ∧ (posted entry up).roster[(2 : RosterIx)] = some entry ∧
      (posted entry up).roster[(0 : RosterIx)] = none ∧ (posted entry up).roster[(1 : RosterIx)] = none ∧
      ({ up with roster := Vector.replicate 512 (some entry) } : State).roster[(511 : RosterIx)] ≠ none ∧
      (up.rooms[(3 : RoomNo)]).pathOpen = false ∧
      ((posted entry (shown .armed)).rooms[(3 : RoomNo)]).pathOpen = true ∧ entry.room ≠ 4 := by
  unfold State.ready; decide +kernel

theorem test_meets_AssignPostsAReceiver_moved : (posted entry (shown .armed)).receiversSound := by
  have at2 : ∀ (i : RosterIx) (e : RosterEntry), (posted entry (shown .armed)).roster[i] = some e → i = 2 ∧ e = entry := by
    have only : ∀ i : RosterIx, (posted entry (shown .armed)).roster[i] = if i = 2 then some entry else none := by
      intro i
      have eq : (i = 2) = (i.val = 2) := propext Fin.ext_iff
      simp [posted, State.setEntry, State.modRoom, shown, at3, State.modClock, up, State.reset, State.powerOnValues,
        Vector.getElem_set, eq, eq_comm]
    intro i e h
    rw [only i] at h
    by_cases c : i = 2
    · simp [c] at h; exact ⟨c, h.symm⟩
    · simp [c] at h
  refine ⟨fun i j a b ha hb _ => (at2 i a ha).1.trans (at2 j b hb).1.symm, fun i e h => ?_⟩
  rw [(at2 i e h).2]
  decide

theorem test_meets_ReleaseFreesOrReturnsAReceiver :
    (posted entry up).ready ∧ (posted { entry with releasing := true } up).roster[(2 : RosterIx)] = some { entry with releasing := true } ∧
      ((posted entry (shown .armed)).rooms[entry.room]).pathOpen = true ∧
      ((posted entry up).rooms[entry.room]).pathOpen = false := by
  unfold State.ready; decide +kernel

theorem test_meets_DirectivesAreProduced :
    ((up.rooms[(3 : RoomNo)]).urgent = [] ∧ (up.rooms[(3 : RoomNo)]).cursor = none) ∧ (2 : RosterIx) ∉ [(5 : RosterIx)] ∧
      (((posted entry up).rooms[(3 : RoomNo)]).urgent = [] ∧ ((posted entry up).rooms[(3 : RoomNo)]).cursor = some 2) ∧
      ∀ e ∈ [entry, { entry with releasing := true, releaseCount := 3 }, { entry with releasing := true, releaseCount := 1 },
          { entry with room := 4, former := some 3, forwardCount := 2 },
          { entry with room := 4, former := some 3, forwardCount := 1, releasing := true }],
        let s := ((up.setEntry 2 (some e)).modRoom 3 (fun room => { room with urgent := [2, 7] }))
        s.roster[(2 : RosterIx)] = some e ∧ (s.rooms[(3 : RoomNo)]).urgent = 2 :: [7] ∧
          (e.room = 3 ∨ e.room ≠ 3 ∧ e.former = some 3) := by decide +kernel

/-- R155: a forward names the channel of the entry's room, and the last one leaves no former room. -/
theorem test_last_forward :
    let s := (up.setEntry 2 (some { entry with room := 4, former := some 3, forwardCount := 1 })).modRoom 3
      (fun room => { room with urgent := [2] })
    (s.produceDirective 3).2 = [0#8, 0, 0, 77, 2, 0, 5, 0x10] ∧
      (s.produceDirective 3).1.roster[(2 : RosterIx)] = some { entry with room := 4 } ∧
      ((s.produceDirective 3).1.rooms[(3 : RoomNo)]).urgent = [] := by decide +kernel

/-! ### Playing, and the array's outcomes -/

def ctx : PCtx := ⟨3, 1, .running, 100, 24, 10, none⟩

def playing (kind : BKind) : PWork :=
  ⟨{ Binding.initial with state := .playing, loaded := true, kind := some kind }, [], [], []⟩

def cue (start stop : Nat) : Cue := ⟨4, start, stop, 0x13, [0x61]⟩

/-- A text binding whose serve page is read out, with what its feed queues hold. -/
def readOut (prompt rept : List FeedMsg) (staging : List Cue) (window : List WinCue) : PWork :=
  (playing .text).mod (fun b => { b with
    serve := some ⟨⟨0, 0⟩, 0, 5, 5, [1, 2, 3, 4, 5]⟩, prompt := prompt, rept := rept, staging := staging, window := window })

/-- A prompt queue with no place left and no SHOW that could be dropped from it. -/
def fullPrompt : List FeedMsg := List.replicate 16 ⟨.clear 1 false, 0⟩

def waiting (serial : Nat) : FeedMsg := ⟨.show_ serial 0 [0x61], 0⟩

/-- A full prompt queue whose second message is an unsent SHOW. -/
def fullWith (serial : Nat) : List FeedMsg := ⟨.wipe, 0⟩ :: waiting serial :: List.replicate 14 ⟨.clear 1 false, 0⟩

def winCue (serial start stop : Nat) (age : Option Nat) : WinCue := ⟨serial, .frames start stop, 0, [0x61], age⟩

/-- A due head at its start frame: it enters an open queue, one with an unsent SHOW and one without; it is over; the room is
HELD; it enters a full window. -/
theorem test_meets_CaptionsFollowThePosition_entry :
    (cue 100 101).start ≤ ctx.pos ∧ (∀ d ∈ [cue 101 200], ctx.pos < d.start) ∧ ctx.pos < (cue 100 101).stop ∧
      (readOut [] [] [] []).b.fetch = .empty ∧ (readOut [] [] [] []).b.endTaken = false ∧ ctx.show_ ≠ .held ∧
      (let w := readOut (List.replicate 15 ⟨.clear 1 false, 0⟩) [] [cue 100 101, cue 101 200] []
       w.b.prompt.length < 16 ∧ (activate ctx w).b.prompt.length = 16 ∧ (activate ctx w).b.staging = [cue 101 200]) ∧
      (let w := readOut (fullWith 9) [] [cue 100 101] []
       16 ≤ w.b.prompt.length ∧ (activate ctx w).b.prompt.length = 16 ∧ (activate ctx w).evs = [.feedOverflow]) ∧
      (let w := readOut fullPrompt (List.replicate 3 (waiting 9)) [cue 100 101] []
       w.b.rept.length < 4 ∧ (activate ctx w).b.prompt = fullPrompt ∧ (activate ctx w).b.rept.length = 4) ∧
      (let w := readOut fullPrompt (List.replicate 4 (waiting 9)) [cue 100 101] []
       4 ≤ w.b.rept.length ∧ (activate ctx w).b.rept.length = 4 ∧ (activate ctx w).b.window.length = 1) ∧
      ((cue 99 100).stop ≤ ctx.pos ∧ (activate ctx (readOut [] [] [cue 99 100] [])).b.window = []) ∧
      (activate { ctx with show_ := .held } (readOut [] [] [cue 100 101] [])).b.staging = [cue 100 101] ∧
      (let w := readOut [] [waiting 5] [cue 100 101]
        [winCue 5 90 101 none, winCue 6 100 101 (some 0), winCue 7 100 101 (some 3), winCue 8 100 101 (some 8)]
       (8 + 1 < ctx.carousel ∧ 90 ≤ (cue 100 101).start ∧ w.b.prompt.length < 15) ∧
         (activate ctx w).b.window.map (·.serial) = [6, 7, 8, 4] ∧ (activate ctx w).b.rept = []) := by decide +kernel

/-- A window cue at its end frame, and one frame before it: its CLEAR in an open queue, against its own unsent SHOW, against
another's, and against none, with a second cue in the window; its age at the carousel interval and one below it. -/
theorem test_meets_CaptionsFollowThePosition_window :
    (winCue 5 90 100 none).time = .frames 90 100 ∧ (∀ d ∈ [cue 101 200], ctx.pos < d.start) ∧
      (let w := readOut [] [waiting 5] [cue 101 200] [winCue 5 90 100 none]
       (activate ctx w).b.prompt = [⟨.clear 5 false, 0⟩] ∧ (activate ctx w).b.rept = []) ∧
      (activate ctx (readOut (fullWith 5) [] [] [winCue 5 90 100 none])).b.prompt.length = 15 ∧
      (activate ctx (readOut (fullWith 6) [] [] [winCue 5 90 100 none])).evs = [.feedOverflow] ∧
      (let w := readOut fullPrompt [⟨.show_ 6 0 [0x61], 1⟩] [] [winCue 5 90 100 none, winCue 6 90 101 (some 3)]
       (activate ctx w).b.prompt = [⟨.wipe, 0⟩] ∧ (activate ctx w).b.window = [winCue 6 90 101 none] ∧
         (activate ctx w).b.rept.length = 1) ∧
      (let w := readOut fullPrompt [] [] [winCue 5 90 100 none, winCue 6 90 101 (some 3)]
       (activate ctx w).b.rept = [waiting 6] ∧ (activate ctx w).evs = [.feedOverflow]) ∧
      (ctx.carousel ≤ 9 + 1 ∧ (activate ctx (readOut [] [] [] [winCue 5 90 101 (some 9)])).b.rept = [waiting 5]) ∧
      (8 + 1 < ctx.carousel ∧ (activate ctx (readOut [] [] [] [winCue 5 90 101 (some 8)])).b.rept = []) ∧
      (activate ctx (readOut [waiting 5] [] [] [winCue 5 90 101 (some 9)])).b.rept = [] := by decide +kernel

theorem test_meets_CaptionsFollowThePosition_live :
    (let w := { playing .live with ring := [⟨0, 2, [1], 1, true⟩, ⟨1, 1, [1], 1, true⟩] }
     w.ring = [⟨0, 2, [1], 1, true⟩] ++ ⟨1, 1, [1], 1, true⟩ :: [] ∧ (activate ctx w).b.window.length = 1 ∧
       (∀ e ∈ w.ring, 1 ≤ e.hold)) ∧
      (let w := (playing .live).mod (fun b => { b with window := [⟨4, .live 1 true, 0, [1], none⟩] })
       (∀ e ∈ w.ring, e.binding ≠ ctx.ix) ∧ (activate ctx w).b.window = []) ∧
      (let w := (playing .live).mod (fun b => { b with window := [⟨4, .live 2 true, 0, [1], some 8⟩] })
       8 + 1 < ctx.carousel ∧ (activate ctx w).b.window = [⟨4, .live 1 true, 0, [1], some 9⟩]) := by decide +kernel

/-- R95, R100, R107: the first cue that ends collapses a full feed, and the others that end leave the window with it. -/
theorem test_removal_after_a_collapse :
    (let ends (n : Nat) : WinCue := ⟨n, .frames n 50, 0, [0x61], some 3⟩
     let w := (playing .text).mod (fun b => { b with window := [ends 1, ends 2], prompt := fullPrompt })
     (activate ctx w).b.window = [] ∧ (activate ctx w).evs = [.feedOverflow]) ∧
      (let spent (n : Nat) : WinCue := ⟨n, .live 1 false, 0, [0x61], some 3⟩
       let w := (playing .live).mod (fun b => { b with window := [spent 1, spent 2], prompt := fullPrompt })
       (activate ctx w).b.window = []) := by decide +kernel

/-- The track's view of a text binding on page 0 of it, its last page given. -/
def captioned (show_ : ShowState) (last : TrackPage) : PCtx :=
  { ctx with show_ := show_, track := some ⟨.text, [⟨0, 5, 10⟩], last, 15⟩ }

/-- A text binding whose serve page has an item to read from byte 1, the staging list and the item in progress given. -/
def reading (item : List Byte) (staging : List Cue) (part : Option PartCue) : PWork :=
  (playing .text).mod (fun b => { b with
    serve := some ⟨⟨0, 0⟩, 0, 1, item.length + 1, 7 :: item⟩, staging := staging, part := part, nextSerial := 65535 })

def textCue (start stop len : Nat) : List Byte :=
  [1#8] ++ u32 start ++ u32 stop ++ [0x23#8] ++ u16 len ++ List.replicate len 0x61#8

/-- The refill in a room that runs and in one that is HELD: a whole cue to come, and one due, with the staging list empty, of
seven and of eight; text past the page and its rest; a pad; the END record; content out of form; the fetched page. -/
theorem test_meets_CaptionsFollowThePosition_refill :
    (readHeader .text (textCue 101 102 5)).map (fun h => (h.start, h.stop, h.len)) = some (101, 102, 5) ∧
      (let t := activate (captioned .running ⟨0, 9⟩) (reading (textCue 101 102 5) [cue 101 200, cue 102 200] none)
       t.b.staging.map (·.serial) = [4, 65535, 4] ∧ t.b.nextSerial = 1 ∧ t.b.serve.map (·.off) = some 18 ∧ t.evs = []) ∧
      (let t := activate (captioned .running ⟨0, 9⟩)
        (reading (textCue 101 102 5 ++ [7]) (List.replicate 7 (cue 101 200)) none)
       t.b.staging.length = 8 ∧ t.b.serve.map (·.off) = some 18 ∧ t.b.state = .playing) ∧
      (let w := reading (textCue 101 102 5) (List.replicate 8 (cue 101 200)) none
       activate (captioned .running ⟨0, 9⟩) w = w) ∧
      (let t := activate (captioned .held ⟨0, 9⟩) (reading (textCue 100 101 5) [cue 99 200] none)
       t.b.staging.map (·.start) = [99, 100] ∧ t.b.window = []) ∧
      (let t := activate (captioned .running ⟨0, 9⟩) (reading (textCue 100 101 5) [] none)
       t.b.staging = [] ∧ t.b.window.map (·.serial) = [65535] ∧ t.b.prompt.length = 1 ∧ t.b.rept = []) ∧
      (let t := activate (captioned .running ⟨0, 9⟩) (reading ((textCue 101 102 5).take 14) [] none)
       t.b.staging = [] ∧ t.b.part.map (·.got) = some [0x61, 0x61] ∧ t.b.serve.map (·.off) = some 15) ∧
      (let t := activate (captioned .running ⟨0, 9⟩) (reading [0x62] [] (some ⟨6, 101, 102, 0, 3, [0x61, 0x61]⟩))
       t.b.staging = [⟨6, 101, 102, 0, [0x61, 0x61, 0x62]⟩] ∧ t.b.part = none ∧ t.b.nextSerial = 65535) ∧
      (activate (captioned .running ⟨0, 9⟩) (reading [0] [] none)).b.serve.map (·.off) = some 2 ∧
      (let t (staging : List Cue) := activate (captioned .running ⟨0, 0⟩) (reading (endRecord 1 95 0 0) staging none)
       (t []).b.endTaken = true ∧ (t []).b.state = .finished ∧ (t [cue 101 200]).b.state = .playing) ∧
      (∀ item ∈ [[0#8, 1], endRecord 1 95 0 0, [5], textCue 101 102 0],
        let t := activate (captioned .running ⟨0, 9⟩) (reading item [cue 101 200] none)
        t.b.state = .faulted ∧ t.b.staging = [] ∧ t.evs = [.pageCheck]) ∧
      (let data := textCue 101 102 5
       let w := (readOut [] [] [] []).mod (fun b => { b with fetch := .filled ⟨0, 1⟩ 5 data.length data })
       let t := activate (captioned .running ⟨0, 9⟩) w
       t.b.staging.length = 1 ∧ t.b.serve = some ⟨⟨0, 1⟩, 5, 17, 17, data⟩ ∧ t.b.fetch = .requested ⟨0, 2⟩ 22 false false ∧
         t.b.issued = some ⟨5, ⟨0, 2⟩, 0, false⟩ ∧ t.reqs = [⟨3, 1, 0, 5, 2⟩]) := by decide +kernel

def block32 : List Byte := List.replicate 32 7

/-- The bytes of a VOICE header. -/
def voiceHeader (start stop blocks : Nat) : List Byte := 2#8 :: (u32 start ++ u32 stop ++ u24 blocks)

/-- The next page of a track, asked for. -/
def asked1 : FetchBuf := .requested ⟨0, 1⟩ 0 false false

/-- A voice binding on page 0 of ordinal 0 of a track whose last page is given: its clip, the page, what follows. -/
def speaking (clip : Option Clip) (off : Nat) (data : List Byte) (next : NextClip) (fetch : FetchBuf) : PWork :=
  (playing .voice).mod (fun b => { b with
    clip := clip, serve := some ⟨⟨0, 0⟩, 0, off, data.length, data⟩, nextClip := next, fetch := fetch })

def track (last : TrackPage) : PCtx := { ctx with track := some ⟨.voice, [⟨0, 5, 10⟩], last, 15⟩ }

def blocks (n : Nat) : List Byte := (List.replicate n block32).flatten

/-- A clip under way, one frame before its cut: its block in the page, straddling with one byte in it, not in hand; a HELD
room; its last block before a header, before the END record and at the edge of the page. -/
theorem test_meets_VoiceBlocksAreSentInTurn_clip :
    let c (n index : Nat) : Clip := ⟨95, 95, n, index, 0⟩
    ((track ⟨0, 9⟩).pos < 95 + 6 ∧ (c 3 1).bodyOff + 32 * (c 3 1).index = 0 + 32) ∧
      (let t := activate (track ⟨0, 9⟩) (speaking (some (c 3 1)) 32 (blocks 2 ++ [1]) .none asked1)
       32 + 32 < (blocks 2 ++ [1]).length ∧ (blocks 2 ++ [1]).length ≤ 32 * 3 ∧ t.b.block = some block32) ∧
      (∀ last ∈ [(⟨0, 1⟩ : TrackPage), ⟨0, 9⟩],
        let t := activate (track last) (speaking (some (c 9 1)) 32 (blocks 1 ++ [7]) .none (.filled ⟨0, 1⟩ 33 31 (List.replicate 31 7)))
        t.b.block = some block32 ∧ t.b.fetch = if last = ⟨0, 1⟩ then .empty else .requested ⟨0, 2⟩ 64 false false) ∧
      (let w := speaking (some (c 3 1)) 32 (blocks 1 ++ List.replicate 31 7) .none asked1
       (activate (track ⟨0, 9⟩) w).b.state = .starved ∧ (activate (track ⟨0, 9⟩) w).evs = [.underrun] ∧
         (activate { track ⟨0, 9⟩ with show_ := .held } w).b = { w.b with block := none }) ∧
      (let data := blocks 2 ++ voiceHeader 101 102 1 ++ [1]
       let t := activate (track ⟨0, 9⟩) (speaking (some (c 2 1)) 32 data (.header 101 102 1) asked1)
       readHeader .voice (data.drop 64) = some ⟨101, 102, 1, 0⟩ ∧ 32 + 44 < data.length ∧ t.b.clip = none ∧
         t.b.nextClip = .header 101 102 1 ∧ t.b.block = some block32 ∧ t.b.nextSerial = 2) ∧
      (let t := activate (track ⟨0, 0⟩) (speaking (some (c 2 1)) 32 (blocks 2 ++ endRecord 1 95 0 0) .endMark .empty)
       t.b.state = .finished ∧ t.b.block = some block32) ∧
      (let t := activate (track ⟨0, 9⟩) (speaking (some (c 2 1)) 32 (blocks 2) .none asked1)
       t.b.clip = none ∧ t.b.state = .playing ∧ t.b.block = some block32) := by decide +kernel

/-- A clip cut at six frames past its stop frame, its end beyond the page and in it; one cut by a next clip, which speaks. -/
theorem test_meets_VoiceBlocksAreSentInTurn_cut :
    let c (stop : Nat) : Clip := ⟨90, stop, 2, 1, 0⟩
    (let t := activate (track ⟨0, 9⟩) (speaking (some (c 94)) 32 (blocks 1 ++ [7]) .none asked1)
     94 + 6 ≤ (track ⟨0, 9⟩).pos ∧ t.b.clip = none ∧ t.b.skipTo = some 64 ∧ t.b.serve.map (·.off) = some 33) ∧
      (let data := blocks 2 ++ voiceHeader 101 102 1 ++ [1]
       let t := activate (track ⟨0, 9⟩) (speaking (some (c 94)) 32 data (.header 101 102 1) asked1)
       64 + 12 < data.length ∧ t.b.clip = none ∧ t.b.serve.map (·.off) = some 76 ∧ t.b.nextClip = .header 101 102 1) ∧
      (let data := blocks 2 ++ voiceHeader 100 102 2 ++ block32 ++ [1]
       let t := activate (track ⟨0, 9⟩) (speaking (some (c 99)) 32 data (.header 100 102 2) asked1)
       0 + 1 < 2 ∧ 64 + 12 + 32 < data.length ∧ t.b.clip = some ⟨100, 102, 2, 1, 76⟩ ∧ t.b.block = some block32) := by
  decide +kernel

/-- R109, R110: in an ARMED room a clip made current at a block of the fetched page moves to that page, and the look-ahead
finds the header behind the clip there; one made current at its first block finds the header in the serve page. -/
theorem test_look_ahead_of_a_clip_made_current :
    (let data := blocks 1 ++ voiceHeader 200 201 1
     let t := activate { track ⟨0, 9⟩ with show_ := .armed } (speaking none 0 (blocks 2) (.header 99 102 3)
       (.filled ⟨0, 1⟩ 64 data.length data))
     t.b.clip = some ⟨99, 102, 3, 2, 0⟩ ∧ t.b.serve.map (·.page) = some ⟨0, 1⟩ ∧ t.b.nextClip = .header 200 201 1 ∧
       t.b.fetch = .requested ⟨0, 2⟩ 108 false false) ∧
      (activate { track ⟨0, 9⟩ with show_ := .armed } (speaking none 0 (blocks 1 ++ voiceHeader 200 201 1)
        (.header 100 102 1) asked1)).b.nextClip = .header 200 201 1 := by decide +kernel

/-- A next clip header one frame before its start, at it, in a HELD room, with its blocks over, and with its block on the
page to come; and content that makes the binding FAULTED. -/
theorem test_meets_VoiceBlocksAreSentInTurn_start :
    let w (start n : Nat) (data : List Byte) := speaking none 0 data (.header start (start + 3) n) asked1
    (activate (track ⟨0, 9⟩) (w 101 9 (blocks 1 ++ [1]))).b.nextClip = .header 101 104 9 ∧
      (let t := activate (track ⟨0, 9⟩) (w 100 2 (blocks 1 ++ [1]))
       0 + 32 < (blocks 1 ++ [1]).length ∧ (blocks 1 ++ [1]).length ≤ 32 * 2 ∧ t.b.block = some block32 ∧
         t.b.clip = some ⟨100, 103, 2, 1, 0⟩) ∧
      (activate { track ⟨0, 9⟩ with show_ := .armed } (w 99 3 (blocks 3))).b.serve.map (·.off) = some 64 ∧
      ((100 - 99) * 50 / 24 = 2 ∧ (activate (track ⟨0, 9⟩) (w 99 2 (blocks 2))).b.skipTo = some 64) ∧
      (let t := activate (track ⟨0, 9⟩) (w 99 3 (blocks 2))
       32 * 2 + 32 ≤ (blocks 2).length + 2048 ∧ t.b.state = .starved ∧ t.b.locate = .block ∧ t.evs = [.underrun]) ∧
      (let t := activate (track ⟨0, 0⟩) (speaking (some ⟨95, 95, 2, 1, 0⟩) 32 (blocks 2 ++ [7]) .none .empty)
       t.b.state = .faulted ∧ t.b.block = none) := by decide +kernel

/-- Room 3, binding 1 with a request issued, and its fetch in bank 0. -/
def fetching (gen : BitVec 8) (stale : Bool) (buf : FetchBuf) (serve : Option ServePage) (t : Track) : State :=
  (doing (.fetch ⟨3, 1, gen, 5, 0⟩) (withTrack t none (bound .text (.stored 9) (shown .running)))).modBinding 3 1
    (fun b => { b with issued := some ⟨5, ⟨0, 0⟩, 0, stale⟩, fetch := buf, serve := serve, loaded := true })

/-- The array with the track's page 0 written under a matching check, and a view of it that does not match. -/
def goodPage : PageView := ⟨some (0, makeSlot 0 17 (crc cueBytes) none), cueBytes⟩
def badPage : PageView := ⟨some (0, makeSlot 0 17 0 none), cueBytes⟩

theorem test_meets_FetchesAnswerTheirBinding :
    (∀ x ∈ [(0#8, true), (1#8, false), (0#8, false)],
      let s := fetching x.1 x.2 (.requested ⟨0, 0⟩ 0 true true) none sealedTrack
      s.powered = true ∧ (s.banks[(0 : BankNo)]).op = some (.fetch ⟨3, 1, x.1, 5, 0⟩) ∧
        (s.banks[(0 : BankNo)]).halted = false ∧ (s.binding 3 1).issued = some ⟨5, ⟨0, 0⟩, 0, x.2⟩ ∧
        (s.binding 3 1).gen = 0 ∧ (s.binding 3 1).track = .stored 9 ∧ s.track? 9 = some sealedTrack ∧
        (s.binding 3 1).kind = some .text ∧ (s.binding 3 1).state = .playing ∧ (s.binding 3 1).loaded = true) ∧
      judgePage goodPage = some (17, cueBytes) ∧ judgePage badPage = none ∧
      sealedTrack.segs = [⟨0, 5, 10⟩] ∧ sealedTrack.summary = some ⟨1, 20, 10, ⟨0, 0⟩⟩ ∧
      (∃ sp : ServePage, sp.off < sp.fill ∧
        ((fetching 0 false (.requested ⟨0, 0⟩ 0 false false) (some sp) sealedTrack).binding 3 1).serve = some sp) := by
  refine ⟨by decide +kernel, by decide +kernel, by decide +kernel, by decide +kernel, by decide +kernel,
    ⟨⟨0, 0⟩, 0, 0, 1, [0]⟩, by decide +kernel, by decide +kernel⟩

/-- R7, R20, R23: a fetch of a drain-set segment that completes after SOFT_RESET, the other bank idle and not: the request
leaves, the count falls, the pool and the binding stay as they are. -/
theorem test_meets_FetchesAnswerTheirBinding_halted :
    ∀ other ∈ [none, some (Op.clear 8)],
      let s0 := (fetching 0 false (.requested ⟨0, 0⟩ 0 false false) none sealedTrack).modBank 0 (fun b =>
        { b with fetchQ := [⟨3, 1, 0, 5, 0⟩], drain := [5], segs := b.segs.set 5 ⟨.drain, 1, none⟩ })
      let s := ((s0.modBank 1 (fun b => { b with op := other })).haltBanks).modLink (fun l =>
        { l with resetting := true, inbound := [⟨0, 1, 2, 0, false⟩] })
      let t := after (.fetchComplete 0 none) s
      s.powered = true ∧ (s.banks[(0 : BankNo)]).op = some (.fetch ⟨3, 1, 0, 5, 0⟩) ∧
        (s.banks[(0 : BankNo)]).halted = true ∧ s.openPlace? 0x02 0 = some 0 ∧
        (t.banks[(0 : BankNo)]).fetchQ = [] ∧ (t.banks[(0 : BankNo)]).segs[(5 : SegNo)] = ⟨.drain, 0, none⟩ ∧
        (t.banks[(0 : BankNo)]).clearQ = [] ∧ t.binding 3 1 = s.binding 3 1 ∧
        (t.link.outbound = if other = none then [.reply 0 1 true []] else []) := by decide +kernel

/-- A track of two segments whose last page is page 1 of ordinal 1, and a binding that waits for a page of it. -/
def view (kind : TrackKind) (last : TrackPage) : TrackView := ⟨kind, [⟨0, 5, 10⟩, ⟨1, 6, 90⟩], last, 15⟩

def arriving (kind : BKind) (page : TrackPage) (sc : Option Scan) (state : BState) : PWork :=
  ⟨{ Binding.initial with
    state := state, kind := some kind, gen := 7, issued := some ⟨5, page, 7, false⟩
    fetch := .requested page 0 false false, scan := sc }, [], [], []⟩

def opening (seekPos ord entry : Nat) : Scan := ⟨seekPos, .opening, ord, entry, [], none⟩

def at_ (pos : Nat) (v : TrackView) : PCtx := { ctx with pos := pos, track := some v }

def pageOf (data : List Byte) : Option (Nat × List Byte) := some (data.length, data)

def clipBytes (start stop n : Nat) : List Byte := voiceHeader start stop n ++ blocks n

/-- The start segment at, and one below, an entry frame plus the longest span; a candidate at its end frame, and as the
fourth and the fifth. -/
theorem test_meets_LandingScansFindThePosition_start :
    (90 ≤ 105 - (view .text ⟨1, 1⟩).longest ∧ startSegment (view .text ⟨1, 1⟩) 105 = ⟨1, 6, 90⟩) ∧
      (104 - (view .text ⟨1, 1⟩).longest < 90 ∧ startSegment (view .text ⟨1, 1⟩) 104 = ⟨0, 5, 10⟩) ∧
      (24 - (view .text ⟨1, 1⟩).longest < 10 ∧ startSegment (view .text ⟨1, 1⟩) 24 = ⟨0, 5, 10⟩) ∧
      ((cue 1 10).stop ≤ 10 ∧ 9 < (cue 1 10).stop) ∧
      (List.replicate 3 (cue 1 10)).length < 4 ∧ 4 ≤ (List.replicate 4 (cue 1 10)).length := by decide +kernel

/-- A page that arrives in the opening phase: it does not open; a stop cue; a clip to come, and one under way; the END
record; malformed content. The frame of a step back, a landing and a fault is in what `activate` would see next. -/
theorem test_meets_LandingScansFindThePosition_opening :
    (let w := arriving .text ⟨1, 0⟩ (some (opening 100 1 90)) .priming
     let t := takeResult 7 (pageOf cueBytes) (at_ 100 (view .text ⟨1, 1⟩)) w
     t.b.scan = some (opening 100 0 10) ∧ t.b.fetch = .requested ⟨0, 0⟩ 0 false false) ∧
      (let w := arriving .text ⟨0, 0⟩ (some (opening 9 0 10)) .priming
       let t := takeResult 7 (pageOf cueBytes) (at_ 9 (view .text ⟨1, 1⟩)) w
       t.b.state = .playing ∧ t.b.staging.length = 1 ∧ t.evs = [.landed] ∧ t.reqs.length = 1) ∧
      (let w := arriving .voice ⟨0, 0⟩ (some (opening 9 0 10)) .priming
       let t := takeResult 7 (pageOf (clipBytes 10 20 2)) (at_ 9 (view .voice ⟨1, 1⟩)) w
       t.b.state = .playing ∧ t.b.nextClip = .header 10 20 2) ∧
      (let w := arriving .voice ⟨0, 0⟩ (some (opening 10 0 10)) .priming
       let t := takeResult 7 (pageOf (clipBytes 10 20 2)) (at_ 10 (view .voice ⟨1, 1⟩)) w
       t.b.state = .playing ∧ t.b.clip = some ⟨10, 20, 2, 0, 12⟩) ∧
      (let w := arriving .voice ⟨0, 0⟩ (some (opening 12 0 10)) .priming
       let t := takeResult 7 (pageOf ((clipBytes 10 20 90).take 100)) (at_ 12 (view .voice ⟨1, 1⟩)) w
       12 + 32 * 4 < 100 + 2048 ∧ t.b.scan.map (·.phase) = some .targeting ∧ t.b.serve.map (·.off) = some 12) ∧
      (let w := arriving .voice ⟨0, 0⟩ (some (opening 19 0 10)) .priming
       let t := takeResult 7 (pageOf ((clipBytes 10 60 200).take 100)) (at_ 57 (view .voice ⟨1, 1⟩)) w
       100 + 2048 ≤ 12 + 32 * 97 ∧ t.b.fetch = .requested ⟨0, 2⟩ 2148 false true ∧
         t.b.issued = some ⟨5, ⟨0, 1⟩, 7, true⟩) ∧
      (let w := arriving .voice ⟨0, 0⟩ (some (opening 11 0 10)) .priming
       let t := takeResult 7 (pageOf ((clipBytes 10 20 90).take 100)) (at_ 11 (view .voice ⟨1, 1⟩)) w
       12 + 32 * 2 < 100 ∧ 100 < 12 + 32 * 2 + 32 ∧ t.b.serve.map (·.off) = some 76) ∧
      (let w := arriving .voice ⟨0, 0⟩ (some (opening 12 0 10)) .priming
       let t := takeResult 7 (pageOf ((clipBytes 10 20 4).take 139)) (at_ 12 (view .voice ⟨1, 1⟩)) w
       4 ≤ (12 - 10) * 50 / 24 ∧ t.b.skipTo = some 140 ∧ t.b.scan.map (·.phase) = some .reading) ∧
      (let w := arriving .voice ⟨0, 0⟩ (some (opening 12 0 10)) .priming
       let t := takeResult 7 (pageOf (clipBytes 10 20 4 ++ voiceHeader 13 14 1)) (at_ 12 (view .voice ⟨1, 1⟩)) w
       t.evs = [.landed] ∧ t.b.nextClip = .header 13 14 1 ∧ t.b.nextSerial = 3) ∧
      (let w := arriving .voice ⟨0, 0⟩ (some (opening 12 0 10)) .priming
       let t := takeResult 7 (pageOf (clipBytes 10 20 4)) (at_ 12 (view .voice ⟨0, 0⟩)) w
       t.b.locate = .endPage ∧ t.b.fetch = .requested ⟨0, 0⟩ 0 false false) ∧
      (let w := arriving .text ⟨0, 0⟩ (some (opening 9 0 10)) .priming
       let t := takeResult 7 (pageOf (endRecord 1 20 10 0)) (at_ 9 (view .text ⟨0, 0⟩)) w
       t.b.endTaken = true ∧ t.evs = [.landed]) ∧
      (let w := arriving .text ⟨0, 0⟩ (some (opening 9 0 10)) .priming
       let t := takeResult 7 (pageOf [7#8]) (at_ 9 (view .text ⟨0, 0⟩)) w
       t.b.state = .faulted ∧ t.evs = [.pageCheck]) := by decide +kernel

/-- The last page for its END record, with and without it; the page of the block targeted, and the rest of the block. -/
theorem test_meets_LandingScansFindThePosition_later :
    (let w := (arriving .voice ⟨1, 1⟩ (some { opening 9 0 10 with phase := .reading }) .priming).mod
      (fun b => { b with locate := .endPage })
     (takeResult 7 (pageOf (endRecord 1 20 10 0)) (at_ 9 (view .voice ⟨1, 1⟩)) w).b.endTaken = true ∧
       (takeResult 7 (pageOf (List.replicate 11 0)) (at_ 9 (view .voice ⟨1, 1⟩)) w).b.state = .faulted) ∧
      (let w (n : Nat) := (arriving .voice ⟨0, 1⟩ (some { opening 9 0 10 with
          phase := .targeting, target := some ⟨8, 20, 5, 1, 0⟩ }) .priming).mod
        (fun b => { b with serve := some ⟨⟨0, 0⟩, 0, 1, n, List.replicate n 0⟩, fetch := .requested ⟨0, 1⟩ n false false })
       let t (n : Nat) := takeResult 7 (pageOf block32) (at_ 8 (view .voice ⟨1, 1⟩)) (w n)
       ((t 32).b.state = .playing ∧ (t 32).b.serve.map (·.base) = some 32 ∧ (t 32).evs = [.landed]) ∧
         ((t 33).b.state = .playing ∧ (t 33).b.serve.map (·.off) = some 32 ∧ (t 33).b.pageInHand = true)) := by
  decide +kernel

/-- A STARVED binding, its clip's end beyond the page that arrives: the block at the edge of the page; a block targeted; one
on the page after, and two pages on; a clip over, its end on the page after and on the page itself. -/
theorem test_meets_LandingScansFindThePosition_starved :
    let w (c : Clip) (locate : Locate) := (arriving .voice ⟨0, 1⟩ none .starved).mod (fun b => { b with
      loaded := true, serve := some ⟨⟨0, 0⟩, 0, 1, 1, [0]⟩, clip := some c, locate := locate })
    let t (pos : Nat) (c : Clip) (locate : Locate) := takeResult 7 (pageOf (blocks 2)) (at_ pos (view .voice ⟨1, 1⟩)) (w c locate)
    (64 ≤ 32 * 5 ∧ (t 8 ⟨8, 20, 5, 1, 0⟩ .none).b.serve = some ⟨⟨0, 1⟩, 0, 32, 64, blocks 2⟩ ∧
        (t 8 ⟨8, 20, 5, 1, 0⟩ .none).b.state = .playing) ∧
      (t 8 ⟨8, 20, 5, 1, 0⟩ .block).b.clip = some ⟨8, 20, 5, 1, 0⟩ ∧
      (64 ≤ 32 * 2 ∧ 32 * 2 + 32 ≤ 64 + 2048 ∧ (t 9 ⟨8, 20, 5, 1, 0⟩ .none).b.locate = .block ∧
        (t 9 ⟨8, 20, 5, 1, 0⟩ .none).b.fetch = .requested ⟨0, 2⟩ 64 false false) ∧
      (64 + 2048 ≤ 32 * 66 ∧ (t 8 ⟨8, 20, 99, 66, 0⟩ .none).b.fetch = .requested ⟨0, 3⟩ 2112 false true) ∧
      (2 ≤ (9 - 8) * 50 / 24 ∧ (t 9 ⟨8, 20, 2, 1, 0⟩ .none).b.skipTo = some 64 ∧
        (t 9 ⟨8, 20, 2, 1, 0⟩ .none).b.state = .playing) ∧
      (let u := takeResult 7 (pageOf (blocks 2 ++ voiceHeader 30 31 1)) (at_ 9 (view .voice ⟨1, 1⟩)) (w ⟨8, 20, 2, 1, 0⟩ .none)
       u.b.nextClip = .header 30 31 1 ∧ u.b.serve.map (·.off) = some 76) := by decide +kernel

/-- R124: a fetched page that holds the block's first byte by its own range becomes the serve page, and the page after it
is requested for the rest of the block. -/
theorem test_target_straddles_out_of_the_fetched_page :
    let w : PWork := ⟨{ Binding.initial with
      state := .starved, loaded := true, kind := some .voice, gen := 7, locate := .block
      serve := some ⟨⟨0, 0⟩, 0, 12, 12, List.replicate 12 0⟩, clip := some ⟨8, 20, 9, 1, 12⟩
      fetch := .filled ⟨0, 1⟩ 12 40 (List.replicate 40 0) }, [], [], []⟩
    let t := target (at_ 8 (view .voice ⟨1, 1⟩)) w
    (t.b.serve.map (·.page) = some ⟨0, 1⟩) ∧ t.b.fetch = .requested ⟨0, 2⟩ 52 false false := by decide +kernel

/-- R123, R125: bytes to be passed over that reach past the end of the last page end at its END record. -/
theorem test_passing_over_past_the_end :
    let data := List.replicate 20 0#8 ++ endRecord 1 20 10 0
    let w : PWork := ⟨{ Binding.initial with
      state := .playing, loaded := true, kind := some .voice, skipTo := some 2048
      serve := some ⟨⟨1, 1⟩, 0, 0, 32, data⟩ }, [], [], []⟩
    let t := readForward (at_ 8 (view .voice ⟨1, 1⟩)) w
    t.b.endTaken = true ∧ t.b.skipTo = none := by decide +kernel

theorem test_meets_PageWritesSettleOrRewind :
    (∀ tr ∈ [loading, { loading with sealPending := true, sealPage := some ⟨0, 0⟩ }, { loading with state := .deleting }],
      let s := withOpen 0x32 (doing (.pageWrite write0) (withTrack tr (some ⟨0, 1, 17⟩) up))
      s.powered = true ∧ (s.banks[(0 : BankNo)]).op = some (.pageWrite write0) ∧ (s.banks[(0 : BankNo)]).halted = false ∧
        s.track? write0.trackId = some tr ∧ (s.arrays[(0 : BankNo)]).slot 5 0 0 = none ∧
        (∀ n : Fin 17, (s.arrays[(0 : BankNo)]).cell 5 0 (0 + n.val) = none) ∧
        s.openPlace? 0x32 9 = some 0 ∧ tr.segs = [] ++ (⟨0, 5, 10⟩ : SegElem) :: [] ∧ tr.bank = 0 ∧
        ((s.banks[(0 : BankNo)]).segs[(5 : SegNo)]).refs = 0) ∧
      loading.checkpoint = some ParserState.start ∧
      (((doing (.pageWrite write0) up).arrays[(0 : BankNo)]).write 5 0 0 0 (write0.tag (up.arrays[(0 : BankNo)])) cueBytes
        (some ⟨none, []⟩)).2 = false ∧
      (((doing (.pageWrite write0) up).arrays[(0 : BankNo)]).write 5 0 0 0 (write0.tag (up.arrays[(0 : BankNo)])) cueBytes
        none).2 = true ∧
      (up.haltBanks.banks[(0 : BankNo)]).halted = true := by decide +kernel

def clearing (tracks : List Track) (free : List SegNo) : State :=
  { (doing (.clear 5) up).modBank 0 (fun b => { b with clearQ := [5, 8], free := free }) with tracks := tracks }

def deleting (left : List SegNo) : Track := { sealedTrack with state := .deleting, segs := [], clearing := left }

def moving : Track := { sealedTrack with state := .moving, move := some ⟨[], ⟨0, 0⟩, 0, [], ParserState.start⟩ }

theorem test_meets_ClearsFreeOrRetireASegment :
    (∀ flaw ∈ [(⟨[], []⟩ : ClearFlaw), ⟨[(131071, 0)], []⟩, ⟨[], [(255, slotOf 2048 none)]⟩],
      (Instr.clearComplete 0 flaw).wellFormed = true) ∧
      (∀ x ∈ [([], [6]), ([deleting [5, 8]], [6]), ([deleting [5]], [6]), ([moving], ([] : List SegNo))],
        let s := withOpen 0x34 (clearing x.1 x.2)
        s.powered = true ∧ (s.banks[(0 : BankNo)]).op = some (.clear 5) ∧ (s.banks[(0 : BankNo)]).halted = false ∧
          (s.banks[(0 : BankNo)]).clearQ = 5 :: [8] ∧ s.openPlace? 0x34 9 = some 0 ∧ s.tracks = x.1 ∧
          (s.banks[(0 : BankNo)]).free = x.2 ∧
          (s.movingTrack? 0).isSome = decide (x.1 = [moving])) := by decide +kernel

/-- R18, R42: a clear that fails while a move waits, with another segment to be cleared and with none. -/
theorem test_meets_ClearsFreeOrRetireASegment_waiting :
    ∀ rest ∈ [[(8 : SegNo)], []],
      let s := (withOpen 0x33 (clearing [moving] [])).modBank 0 (fun b => { b with clearQ := 5 :: rest })
      let t := after (.clearComplete 0 ⟨[(131071, 0)], []⟩) s
      s.movingTrack? 0 = some moving ∧ s.openPlace? 0x33 9 = some 0 ∧ (t.banks[(0 : BankNo)]).retired = [5] ∧
        t.tracks = [if rest = [] then { moving with state := .sealed, move := none } else moving] ∧
        (t.link.outbound = if rest = [] then [.reply 0 1 false (refusedBody .noSpace 0)] else []) := by decide +kernel

/-- A stopped bank, and a move that has its target. -/
theorem test_meets_ClearsFreeOrRetireASegment_others :
    ((clearing [] [6]).haltBanks.banks[(0 : BankNo)]).halted = true ∧
      (let tr := { moving with move := some ⟨[], ⟨0, 0⟩, 0, [⟨0, 6, 0⟩], ParserState.start⟩ }
       (clearing [tr] [6]).movingTrack? 0 = some tr ∧ ∃ x ∈ ([⟨0, 6, 0⟩] : List SegElem), x.ord = (⟨0, 0⟩ : TrackPage).ord) := by
  decide +kernel

/-- A move of page 0 of the track, its one page and last. -/
def stepping (sm : Summary) : State :=
  withOpen 0x33 (doing (.moveStep 9 5 6 ⟨0, 0⟩) (withTrack
    { moving with summary := some sm, move := some ⟨[], ⟨0, 0⟩, 0, [⟨0, 6, 0⟩], ParserState.start⟩ } none up))

def lastPage : List Byte := cueBytes ++ endRecord 1 20 10 0

theorem test_meets_MoveStepsCopyOrAbort :
    (∀ sm ∈ [(⟨1, 20, 10, ⟨0, 0⟩⟩ : Summary), ⟨1, 20, 10, ⟨0, 1⟩⟩],
      let s := stepping sm
      s.powered = true ∧ (s.banks[(0 : BankNo)]).op = some (.moveStep 9 5 6 ⟨0, 0⟩) ∧
        (s.banks[(0 : BankNo)]).halted = false ∧ (s.track? 9).isSome = true ∧ s.openPlace? 0x33 9 = some 0 ∧
        (s.arrays[(0 : BankNo)]).slot 6 0 0 = none ∧ ((s.banks[(0 : BankNo)]).segs[(5 : SegNo)]).refs = 0) ∧
      (∀ n, ((stepping ⟨1, 20, 10, ⟨0, 0⟩⟩).arrays[(0 : BankNo)]).cell 6 0 n = none) ∧
      judgePage badPage = none ∧ judgePage goodPage = some (17, cueBytes) ∧
      parse .text ParserState.start cueBytes = .ok ⟨17, 0, 10, 20, 10, 1⟩ false ∧
      parse .text ParserState.start [0x0F] = .bad .badCue 0 ∧
      (lastPage = cueBytes ++ lastPage.drop (lastPage.length - 12) ∧ lastPage.length = cueBytes.length + 12 ∧
        (lastPage.drop (lastPage.length - 12)).head? = some 0x0F#8) := by
  refine ⟨by decide +kernel, fun n => rfl, by decide +kernel, by decide +kernel, by decide +kernel, by decide +kernel,
    by decide +kernel⟩

/-- R18, R41, R42: page 63 of a move's first target has been written: its next target is taken, waited for, or not to be
had. -/
theorem test_meets_MoveStepsCopyOrAbort_next :
    ∀ x ∈ [([7], []), ([], [8]), (([] : List SegNo), ([] : List SegNo))],
      let m : MoveProgress := ⟨[], ⟨0, 63⟩, 63, [⟨0, 6, 0⟩], ParserState.start⟩
      let tr := { moving with summary := some ⟨1, 20, 10, ⟨1, 0⟩⟩, move := some m }
      let s := (withOpen 0x33 (doing (.moveStep 9 5 6 ⟨0, 63⟩) (withTrack tr none up))).modBank 0 (fun b =>
        { b with free := x.1, clearQ := x.2 })
      let t := after (.moveStepComplete 0 (some goodPage) none) s
      s.track? 9 = some tr ∧ s.openPlace? 0x33 9 = some 0 ∧ (s.arrays[(0 : BankNo)]).slot 6 63 0 = none ∧
        ((t.arrays[(0 : BankNo)]).slot 6 63 0).isSome = true ∧
        ((t.track? 9).bind (·.move)).map (fun m => (m.next, m.targets)) =
          (if x.1 = [7] then some (⟨1, 0⟩, [⟨0, 6, 0⟩, ⟨1, 7, 0⟩])
            else if x.2 = [8] then some (⟨1, 0⟩, [⟨0, 6, 0⟩]) else none) ∧
        (t.link.outbound = if x.1 = [] ∧ x.2 = [] then [.reply 0 1 false (refusedBody .noSpace 0)] else []) := by
  decide +kernel

/-- Bank 0 mounting in a phase with a read in it, bank 1 finished. -/
def mountingIn (phase : MountPhase) (op : Op) : State :=
  (doing op (up.modBank 0 (fun b => { b with mount := some ⟨phase, [], [], []⟩ }))).modBank 1
    (fun b => { b with mount := some ⟨.finished [], [], [], []⟩ })

def member (g : SegNo) : Member := ⟨g, ⟨9, 1, eng, 0, 0, 10⟩⟩
def group : Group := ⟨9, 0, .text, eng, [member 5]⟩

theorem test_meets_MountReadsBuildTheDirectory :
    (∀ x ∈ [(MountPhase.scan 2046, Op.tagRead 2046 0 0), (.judge group 0 2 [] [], .tagRead 5 1 0),
        (.contest [member 5, member 6] 62 62 [] [], .pageRead 5 62), (.judge group 0 1 [] [], .pageRead 5 0)],
      let s := mountingIn x.1 x.2
      s.powered = true ∧ (s.banks[(0 : BankNo)]).halted = false ∧ (s.banks[(0 : BankNo)]).op = some x.2 ∧
        (s.banks[(0 : BankNo)]).mount = some ⟨x.1, [], [], []⟩ ∧
        (s.banks[(1 : BankNo)]).mount = some ⟨.finished [], [], [], []⟩) ∧
      group.members.getLast? = some (member 5) ∧ judgePage goodPage = some (17, cueBytes) ∧ judgePage badPage = none ∧
      judgePage ⟨none, []⟩ = some (0, []) ∧
      slotIntact 0 (makeSlot 0 17 0 (some ⟨9, 1, eng, 0, 0, 10⟩)) = true ∧ slotIntact 0 (slotOf 17 none) = false ∧
      (after (.mountPageReadComplete 0 none) (mountingIn (.judge group 0 1 [] []) (.pageRead 5 0))).mounting = false := by
  decide +kernel

/-- The last contender of a contest with another behind it; the last group of a bank while the other bank has finished,
each bank's IDs and generations distinct; a group with an END record of its own generation. -/
theorem test_meets_MountReadsBuildTheDirectory_ends :
    (let s := mountingIn (.contest [member 5] 0 0 [⟨member 6, true, 0⟩] [[member 7, member 8]]) (.pageRead 5 0)
     s.powered = true ∧ (s.banks[(0 : BankNo)]).op = some (.pageRead 5 0) ∧
       ((after (.mountPageReadComplete 0 (some ⟨none, []⟩)) s).banks[(0 : BankNo)]).op = some (.pageRead 7 0)) ∧
      (let s := mountingIn (.judge group 63 64 [] []) (.pageRead 5 63)
       (s.banks[(0 : BankNo)]).op = some (.pageRead 5 63)) ∧
      groupHead [member 6, member 5] = some (member 6) ∧ (groupOf [member 6]).isSome = true ∧
      (group.judge 0 (some (12, endRecord 1 20 10 0))).summary = some ⟨1, 20, 10, ⟨0, 0⟩⟩ ∧
      (group.judge 0 (some (12, endRecord 1 20 10 1))).summary = none := by decide +kernel

/-- R21, R51: a mount that ends with 31 and with 32 segments free or to be cleared in bank 0, and 31 and 32 in bank 1. -/
theorem test_meets_MountReadsBuildTheDirectory_low :
    ∀ n ∈ [31, 32], ∀ n' ∈ [31, 32],
      let s := ((mountingIn (.judge group 0 1 [] []) (.pageRead 5 0)).modBank 0 (fun b =>
        { b with mount := some ⟨.judge group 0 1 [] [], [], List.replicate n 8, []⟩ })).modBank 1 (fun b =>
        { b with mount := some ⟨.finished [], [], List.replicate n' 8, []⟩ })
      let t := after (.mountPageReadComplete 0 none) s
      let l := t.evu.latch (.device .segmentsLow)
      t.mounting = false ∧ (t.banks[(0 : BankNo)]).freePlusClear = n ∧ (t.banks[(1 : BankNo)]).freePlusClear = n' ∧
        l.count = (if n = 31 then 1 else 0) + (if n' = 31 then 1 else 0) := by decide +kernel

theorem test_meets_MountReadsBuildTheDirectory_distinct :
    (⟨.judge group 63 64 [] [], [], [], []⟩ : MountProgress).distinct ∧
      (⟨.finished [], [], [], []⟩ : MountProgress).distinct := by
  unfold MountProgress.distinct; decide +kernel

/-! The remaining statements that a ready part meets: IDENT, LINE_READ and ROOM_STATUS. -/

theorem test_meets_ready : up.ready ∧ State.reset.ready := by unfold State.ready; decide +kernel

end Sys2Proof.Tests
end

section
/-! PROOF. TRACK_CREATE: the directory and the codes it reads, its meaning case by case, and the statement. -/

namespace Sys2Proof.Machine

open Sys2Proof

/-! ### The directory -/

theorem State.track?_isSome_iff (s : State) (id : Nat) : (s.track? id).isSome = true ↔ ∃ tr ∈ s.tracks, tr.id = id := by
  simp [State.track?]

theorem mem_insertTrack (t x : Track) (l : List Track) : x ∈ insertTrack t l ↔ x = t ∨ x ∈ l := by
  induction l with
  | nil => simp [insertTrack]
  | cons u us ih =>
    unfold insertTrack
    split
    · exact List.mem_cons
    · rw [List.mem_cons, ih, List.mem_cons, or_left_comm]

/-! ### The codes and the letters -/

@[simp] theorem TrackKind.ofCode?_code (k : TrackKind) : TrackKind.ofCode? k.code = some k := by cases k <;> rfl

theorem TrackKind.exists_code_iff (c : Nat) : (∃ k : TrackKind, k.code = c) ↔ c = 1 ∨ c = 2 := by
  constructor
  · rintro ⟨_ | _, rfl⟩
    · exact .inl rfl
    · exact .inr rfl
  · rintro (rfl | rfl)
    · exact ⟨.text, rfl⟩
    · exact ⟨.voice, rfl⟩

theorem TrackKind.code_of_ofCode? {c : Nat} {k : TrackKind} (h : TrackKind.ofCode? c = some k) : k.code = c := by
  unfold TrackKind.ofCode? at h
  split at h
  · next hc =>
    cases h
    exact hc.symm
  · split at h
    · next hc =>
      cases h
      exact hc.symm
    · cases h

theorem Lang.valid_iff (l : Lang) :
    Lang.valid l = true ↔ ∀ x ∈ [l.a, l.b, l.c], 0x41 ≤ x.toNat ∧ x.toNat ≤ 0x5A := by
  simp [Lang.valid]

/-! ### The meaning of TRACK_CREATE, case by case -/

/-- R28 step 2: what is judged of the command's own fields. -/
def CreateFieldsGood (id kind : Nat) (lang : Lang) (bank : Nat) : Prop :=
  id ≠ 0 ∧ (kind = 1 ∨ kind = 2) ∧ (∀ x ∈ [lang.a, lang.b, lang.c], 0x41 ≤ x.toNat ∧ x.toNat ≤ 0x5A) ∧ bank ≤ 1

theorem createFieldsGood_code (id : Nat) (k : TrackKind) (lang : Lang) (b : BankNo) :
    CreateFieldsGood id k.code lang b.val ↔ id ≠ 0 ∧ Lang.valid lang = true := by
  have hk : k.code = 1 ∨ k.code = 2 := (TrackKind.exists_code_iff _).1 ⟨k, rfl⟩
  have hb : b.val ≤ 1 := Nat.le_of_lt_succ b.isLt
  simp only [CreateFieldsGood, Lang.valid_iff, hk, hb, true_and, and_true]

/-- Good fields name a kind and a bank. -/
theorem CreateFieldsGood.names {id kind : Nat} {lang : Lang} {bank : Nat} (h : CreateFieldsGood id kind lang bank) :
    ∃ (k : TrackKind) (b : BankNo), k.code = kind ∧ b.val = bank := by
  obtain ⟨-, hkind, -, hbank⟩ := h
  obtain ⟨k, hk⟩ := (TrackKind.exists_code_iff kind).2 hkind
  exact ⟨k, ⟨bank, Nat.lt_succ_of_le hbank⟩, hk, rfl⟩

theorem takeTrackCreate_mounting (id kind : Nat) (lang : Lang) (bank place : Nat) (s : State) (h : s.mounting = true) :
    takeTrackCreate id kind lang bank place s = s.refuse place .mounting 0 := by
  simp [takeTrackCreate, h]

theorem takeTrackCreate_badFields (id kind : Nat) (lang : Lang) (bank place : Nat) (s : State) (hm : s.mounting = false)
    (hbad : ¬CreateFieldsGood id kind lang bank) :
    takeTrackCreate id kind lang bank place s = s.refuse place .badArg 0 := by
  simp only [takeTrackCreate, hm, Bool.false_eq_true, if_false]
  split
  · rfl
  · next k hk =>
    split
    · next hb =>
      have hfields : id = 0 ∨ (!Lang.valid lang) = true := by
        obtain rfl := TrackKind.code_of_ofCode? hk
        have hnot := (createFieldsGood_code id k lang ⟨bank, hb⟩).not.1 hbad
        simpa [or_iff_not_imp_left] using hnot
      rw [if_pos hfields]
    · rfl

/-- Steps 3 and 4 of R28, and the entry that is made, for fields that step 2 lets pass. -/
theorem takeTrackCreate_goodFields (id : Nat) (k : TrackKind) (lang : Lang) (b : BankNo) (place : Nat) (s : State)
    (hm : s.mounting = false) (hgood : CreateFieldsGood id k.code lang b.val) :
    takeTrackCreate id k.code lang b.val place s =
      if (s.track? id).isSome then s.refuse place .inUse 0
      else if Config.directoryEntries ≤ s.tracks.length then s.refuse place .noSpace 0
      else (s.addTrack (Track.create id k lang b)).done place [] := by
  obtain ⟨hid, hlang⟩ := (createFieldsGood_code id k lang b).1 hgood
  have hb : b.val ≤ 1 := Nat.le_of_lt_succ b.isLt
  simp [takeTrackCreate, hm, hid, hlang, hb]

theorem exec_trackCreate_ready (tag : Byte) (id kind : Nat) (lang : Lang) (bank : Nat) (s : State) (h : s.ready) :
    exec (.trackCreate tag id kind lang bank) s =
      .next (takeTrackCreate id kind lang bank (freePlace s.link.inbound) (s.entered 0x30 tag)) :=
  congrArg Host.Outcome.next (State.command_ready s 0x30 tag _ h)

/-- An entry added, then DONE: the directory and the link change, nothing else. -/
theorem State.addTrack_done_entered (s : State) (t : Track) (type : Nat) (tag : Byte) (body : List Byte) (h : s.ready) :
    ((s.entered type tag).addTrack t).done (freePlace s.link.inbound) body =
      { s with tracks := insertTrack t s.tracks, link := s.link.replied type tag true body } :=
  State.done_of_link s ((s.entered type tag).addTrack t) type tag body h rfl

end Sys2Proof.Machine

open Sys2Proof Sys2Proof.Machine

/-- Settles O45: the cases of takeTrackCreate in R28's order, the entry made being Track.create. -/
theorem trackCreateMakesALoadingEntry : Obligations.TrackCreateMakesALoadingEntry := by
  intro tag id kind lang bank s hs letters good cmd
  have hexec := exec_trackCreate_ready tag id kind lang bank s hs
  have hrefuse := fun reason => State.refuse_entered s 0x30 tag reason 0 hs
  refine ⟨fun hm => ?mounting, fun hm hbad => ?badArg, fun hm hgood hused => ?inUse,
    fun hm hgood hnew hfull => ?noSpace, fun hm hgood hnew hroom => ?created⟩
  case mounting => rw [hexec, takeTrackCreate_mounting _ _ _ _ _ (s.entered 0x30 tag) hm, hrefuse]
  case badArg => rw [hexec, takeTrackCreate_badFields _ _ _ _ _ (s.entered 0x30 tag) hm hbad, hrefuse]
  all_goals
    obtain ⟨k, b, rfl, rfl⟩ := CreateFieldsGood.names hgood
    rw [takeTrackCreate_goodFields id k lang b _ (s.entered 0x30 tag) hm hgood, State.entered_track?, State.entered_tracks] at hexec
  case inUse => rw [hexec, if_pos ((s.track?_isSome_iff id).2 hused), hrefuse]
  all_goals
    have hfree : ¬(s.track? id).isSome = true := by
      intro hsome
      obtain ⟨tr, hmem, hid⟩ := (s.track?_isSome_iff id).1 hsome
      exact hnew tr hmem hid
    rw [if_neg hfree] at hexec
  case noSpace => rw [hexec, if_pos (show Config.directoryEntries ≤ s.tracks.length from hfull), hrefuse]
  case created =>
    have hspace : ¬Config.directoryEntries ≤ s.tracks.length := Nat.not_le.2 hroom
    rw [if_neg hspace, State.addTrack_done_entered _ _ _ _ _ hs] at hexec
    exact ⟨Track.create id k lang b, hexec, rfl, rfl, rfl, rfl, rfl, rfl, rfl, rfl, rfl, rfl, rfl, rfl, rfl, rfl, rfl,
      rfl, fun x => mem_insertTrack _ x s.tracks⟩

end

section
/-! PROOF. NOTICE_SET: what serving the owed list does, the three parts of R183 on the event unit, and the statement. -/

namespace Sys2Proof.Machine

open Sys2Proof

/-! ### Serving the owed list (R182) -/

/-- On the way from `s` to `t` the notices of `es` have been queued and `rest` is left owed. -/
structure Serves (s t : State) (es rest : List EventId) : Prop where
  switch : t.evu.switch = s.evu.switch
  mask   : t.evu.mask = s.evu.mask
  owed   : t.evu.owed = rest
  latch  : ∀ e, t.evu.latch e = if e ∈ es then { s.evu.latch e with queued := true } else s.evu.latch e
  link   : t.link =
    { s.link with outbound := s.link.outbound ++ es.map (fun e => OutMsg.notice e (s.evu.latch e).count) }

theorem Serves.none (s : State) : Serves s s [] s.evu.owed where
  switch := rfl
  mask := rfl
  owed := rfl
  latch _ := rfl
  link := by simp

/-- The head of the owed list taken off and its notice queued. -/
def State.serveHead (s : State) (e : EventId) (rest : List EventId) : State :=
  (s.modEvu (fun u => { u with owed := rest })).queueNotice e

/-- A new owed list leaves every latch. -/
theorem EventUnit.latch_withOwed (u : EventUnit) (l : List EventId) (e : EventId) :
    EventUnit.latch { u with owed := l } e = u.latch e := by cases e <;> rfl

theorem Serves.head (s : State) (e : EventId) (rest : List EventId) : Serves s (s.serveHead e rest) [e] rest where
  switch := EventUnit.setLatch_switch _ _ _
  mask := EventUnit.setLatch_mask _ _ _
  owed := EventUnit.setLatch_owed _ _ _
  latch o := by
    simp only [State.serveHead, State.queueNotice, State.modEvu, EventUnit.latch_setLatch, EventUnit.latch_withOwed,
      List.mem_singleton]
    split
    case isTrue h => rw [h]
    case isFalse => rfl
  link := by simp [State.serveHead, State.queueNotice, State.modEvu, EventUnit.latch_withOwed]

/-- Entries served in two goes; serving leaves the counts, so every notice carries the count its latch had at first. -/
theorem Serves.trans {s t v : State} {es fs mid rest : List EventId} (h : Serves s t es mid) (k : Serves t v fs rest) :
    Serves s v (es ++ fs) rest where
  switch := k.switch.trans h.switch
  mask := k.mask.trans h.mask
  owed := k.owed
  latch e := by
    rw [k.latch, h.latch]
    by_cases he : e ∈ es <;> by_cases hf : e ∈ fs <;> simp [he, hf]
  link := by
    have hcount : ∀ e, (t.evu.latch e).count = (s.evu.latch e).count := by
      intro e
      rw [h.latch]
      split <;> rfl
    simp [k.link, h.link, hcount]

/-- The entries R182 takes off the owed list: as many as the 24 notices leave room for. -/
def State.servable (s : State) : Nat := min s.evu.owed.length (Config.outboundNotices - s.link.notices)

/-- A notice queued takes one of the places left, and its entry leaves the owed list. -/
theorem State.servable_serveHead (s : State) (e : EventId) (rest : List EventId) (howed : s.evu.owed = e :: rest)
    (hroom : s.link.notices < Config.outboundNotices) : s.servable = (s.serveHead e rest).servable + 1 := by
  have hnotices : (s.serveHead e rest).link.notices = s.link.notices + 1 := by
    rw [(Serves.head s e rest).link]
    simp [Link.notices, OutMsg.isNotice]
  simp only [State.servable, howed, (Serves.head s e rest).owed, hnotices, List.length_cons]
  omega

theorem serveOwedN_serves (n : Nat) (s : State) (hn : s.evu.owed.length ≤ n) :
    Serves s (serveOwedN n s) (s.evu.owed.take s.servable) (s.evu.owed.drop s.servable) := by
  have stops {s : State} (h : s.servable = 0) :
      Serves s s (s.evu.owed.take s.servable) (s.evu.owed.drop s.servable) := by
    rw [h]
    exact Serves.none s
  induction n generalizing s with
  | zero => exact stops (by simp [State.servable, List.length_eq_zero_iff.1 (Nat.le_zero.1 hn)])
  | succ n ih =>
    unfold serveOwedN
    split
    case h_1 howed => exact stops (by simp [State.servable, howed])
    case h_2 e rest howed =>
      split
      case isFalse hfull => exact stops (by simp [State.servable, Nat.sub_eq_zero_of_le (Nat.not_lt.1 hfull)])
      case isTrue hroom =>
        have hhead := Serves.head s e rest
        have hlen : (s.serveHead e rest).evu.owed.length ≤ n := by
          rw [howed] at hn
          rw [hhead.owed]
          exact Nat.le_of_succ_le_succ hn
        have hrest := ih (s.serveHead e rest) hlen
        rw [hhead.owed] at hrest
        rw [howed, s.servable_serveHead e rest howed hroom]
        exact hhead.trans hrest

theorem State.serveOwed_serves (s : State) :
    Serves s s.serveOwed (s.evu.owed.take s.servable) (s.evu.owed.drop s.servable) :=
  serveOwedN_serves s.evu.owed.length s le_rfl

/-! ### The event unit under a new switch and mask (R183 steps 1 to 3) -/

@[simp] theorem EventUnit.setNotices_switch (u : EventUnit) (switch : Bool) (mask : BitVec 16) :
    (u.setNotices switch mask).switch = switch := rfl

@[simp] theorem EventUnit.setNotices_mask (u : EventUnit) (switch : Bool) (mask : BitVec 16) :
    (u.setNotices switch mask).mask = mask := rfl

@[simp] theorem EventUnit.setNotices_latch (u : EventUnit) (switch : Bool) (mask : BitVec 16) (e : EventId) :
    (u.setNotices switch mask).latch e = u.latch e := by cases e <;> rfl

/-- R183 step 3 for a unit that has the latches it had before. -/
theorem EventUnit.newlyOwed_of_latch {before after : EventUnit} {e : EventId} (h : after.latch e = before.latch e) :
    before.newlyOwed after e = ((before.latch e).set_ && !(before.latch e).queued && !before.enabled e &&
      after.enabled e && !decide (e ∈ after.owed)) := by
  rw [EventUnit.newlyOwed, h]

theorem EventUnit.setNotices_owed (u : EventUnit) (switch : Bool) (mask : BitVec 16) :
    let on (e : EventId) : Bool := switch && mask.getLsbD e.classCode
    (u.setNotices switch mask).owed = u.owed.filter on ++ allEvents.filter (fun e =>
      (u.latch e).set_ && !(u.latch e).queued && !u.enabled e && on e && !decide (e ∈ u.owed.filter on)) :=
  congrArg (_ ++ ·) (List.filter_congr (fun e _ => EventUnit.newlyOwed_of_latch (by cases e <;> rfl)))

/-! ### NOTICE_SET -/

theorem exec_noticeSet_ready (tag : Byte) (switch : Nat) (mask : BitVec 16) (s : State) (h : s.ready) :
    exec (.noticeSet tag switch mask) s =
      .next (takeNoticeSet switch mask (freePlace s.link.inbound) (s.entered 0x03 tag)) :=
  congrArg Host.Outcome.next (State.command_ready s 0x03 tag _ h)

theorem takeNoticeSet_bad (switch : Nat) (mask : BitVec 16) (place : Nat) (s : State)
    (h : 1 < switch ∨ mask &&& 0xE000#16 ≠ 0#16) : takeNoticeSet switch mask place s = s.refuse place .badArg 0 :=
  if_pos (by simpa [maskBeyond] using h)

/-- The part with the new switch and mask, its owed list not yet served. -/
def State.noticesSet (s : State) (switch : Nat) (mask : BitVec 16) : State :=
  s.modEvu (fun u => u.setNotices (decide (switch = 1)) mask)

theorem takeNoticeSet_good (switch : Nat) (mask : BitVec 16) (place : Nat) (s : State) (hswitch : switch ≤ 1)
    (hmask : mask &&& 0xE000#16 = 0#16) :
    takeNoticeSet switch mask place s =
      let t := (s.noticesSet switch mask).serveOwed
      t.done place (flagByte t.evu.switch ++ u16 t.evu.mask.toNat ++ u8 t.evu.owed.length) :=
  if_neg (by simpa [maskBeyond, hmask] using hswitch)

/-- Notices queued on the way, then DONE: the place as it would be without them, and the reply behind them. -/
theorem State.done_after_notices (s t : State) (ns : List OutMsg) (type : Nat) (tag : Byte) (body : List Byte)
    (h : s.ready) (ht : t.link = { (s.entered type tag).link with outbound := s.link.outbound ++ ns }) :
    t.done (freePlace s.link.inbound) body =
      { t with link := { s.link.replied type tag true body with
          outbound := s.link.outbound ++ ns ++ [.reply (freePlace s.link.inbound) tag true body] } } :=
  State.done_of_link { s with link := { s.link with outbound := s.link.outbound ++ ns } } t type tag body h ht

end Sys2Proof.Machine

open Sys2Proof Sys2Proof.Machine

/-- Settles O21: the event unit after steps 1 to 3 of R183, what serving its owed list does, and the reply behind the
notices. -/
theorem noticeSetReplacesSwitchAndMask : Obligations.NoticeSetReplacesSwitchAndMask := by
  constructor
  case left =>
    intro tag switch mask s hs hbad
    rw [exec_noticeSet_ready tag switch mask s hs, takeNoticeSet_bad _ _ _ _ hbad, State.refuse_entered _ _ _ _ _ hs]
  case right =>
    intro tag switch mask s hs hswitch hmask on kept newly owed served
    let before := (s.entered 0x03 tag).noticesSet switch mask
    have hbefore : before.evu.owed = owed := s.evu.setNotices_owed (decide (switch = 1)) mask
    have hserves : Serves before before.serveOwed (owed.take served) (owed.drop served) := by
      have hservable : before.servable = served := by rw [State.servable, hbefore]; rfl
      rw [← hservable, ← hbefore]
      exact before.serveOwed_serves
    have hlatch (e : EventId) : before.evu.latch e = s.evu.latch e := s.evu.setNotices_latch _ mask e
    have hlink := hserves.link
    simp only [hlatch] at hlink
    have hbody : flagByte before.serveOwed.evu.switch ++ u16 before.serveOwed.evu.mask.toNat ++
          u8 before.serveOwed.evu.owed.length =
        flagByte (decide (switch = 1)) ++ u16 mask.toNat ++ u8 (owed.length - served) := by
      rw [hserves.switch, hserves.mask, hserves.owed, List.length_drop]
      rfl
    obtain ⟨hpowered, hlines, hrooms, hroster, htracks, hbanks, harrays, hpending⟩ := before.serveOwed_frame
    refine ⟨_, (exec_noticeSet_ready tag switch mask s hs).trans
      (congrArg _ ((takeNoticeSet_good _ _ _ _ hswitch hmask).trans
        (State.done_after_notices s before.serveOwed _ 0x03 tag _ hs hlink))), ?_⟩
    rw [hbody]
    exact ⟨hserves.switch, hserves.mask, hserves.owed, fun e => hlatch e ▸ hserves.latch e, rfl, rfl, hrooms,
      hlines, hroster, ⟨harrays, hbanks, htracks⟩, ⟨rfl, rfl, rfl, rfl, rfl⟩, hpowered, hpending⟩

end
